-- ==== Sys2Proof/Word.lean ====
section
/-! DEFINITION. The word types of the part: bytes, 32-bit elements, stamps, addresses, request lengths. -/

namespace Sys2Proof

/-- One byte of a frame, of write data or of read data. -/
abbrev Byte := BitVec 8

/-- One service-link element, 32 bits (spec/00_scope.md, Elements and layouts). -/
abbrev Word := BitVec 32

/-- A value of the microsecond time base; it wraps, and differences are modulo 2^32 (R182, R184). -/
abbrev Stamp := BitVec 32

/-- A 40-bit byte address of the memory path (R1). -/
abbrev Addr := BitVec 40

/-- A request length, 1..256 bytes: the U-port's field holds exactly this range (R1). -/
abbrev Len := { n : Nat // 1 ≤ n ∧ n ≤ 256 }

/-- One of the 16 classes. -/
abbrev ClassId := Fin 16

/-- One of the 8 gauges, and of their monitors. -/
abbrev GaugeId := Fin 8

/-- One of the 64 table entries: the downstream tag (R2). -/
abbrev EntryId := Fin 64

end Sys2Proof
end

