-- ==== Sys2Proof/Syntax.lean ====
section
/-! DEFINITION. The commands of the part: one constructor of Instr for each row of spec/opcode_table.json, with the messages they carry. -/

namespace Sys2Proof

/-- The kind of a request (R1). -/
inductive ReqKind where
  | read
  | write
deriving DecidableEq, Repr

/-- A request as the interconnect presents it at the U-port (R1). `data` is the write data: `len` bytes
for a WRITE, none for a READ (checked by `UReq.wf`). -/
structure UReq where
  source : Byte
  tag    : Byte
  kind   : ReqKind
  addr   : Addr
  len    : Len
  data   : List Byte
deriving DecidableEq, Repr

/-- The status of a return at the M-port (R3). -/
inductive RetStatus where
  | ok
  | fault
deriving DecidableEq, Repr

/-- The commands. A constructor without operands is an event whose object the state itself holds: the
waiting request, the head of the issue queue, or, from `readCommand` on, the next command of the frame
that the service link is running. -/
inductive Instr where
  /-- TAKE (R6): the interconnect presents `r`. -/
  | take (r : UReq)
  /-- RETRY (R10): the intake acts on one notice. -/
  | retry
  /-- INTAKE_EXPIRY (R11). -/
  | intakeExpiry
  /-- M_PORT_TAKE (R16): the memory controller takes the offered request. -/
  | mPortTake
  /-- RETURN (R27): a return with downstream tag, status and read data. -/
  | ret (tag : EntryId) (status : RetStatus) (data : List Byte)
  /-- ENTRY_EXPIRY (R26) of entry `i`. -/
  | entryExpiry (i : EntryId)
  /-- HELD_EXPIRY (R92) of the request at place `k` (0 the head) of class `c`'s hold queue. -/
  | heldExpiry (c : ClassId) (k : Nat)
  /-- REFILL_BOUNDARY (R65). -/
  | refillBoundary
  /-- RELEASE_EVENT (R88). -/
  | releaseEvent
  /-- QUIET_RACE_TIME_EVENT (R100, R101) of class `c`. -/
  | quietRaceTimeEvent (c : ClassId)
  /-- GAUGE_PERIOD_END (R121) of gauge `g`. -/
  | gaugePeriodEnd (g : GaugeId)
  /-- TIME_BASE_TICK (R182): 25 cycles of the reference input have passed. -/
  | timeBaseTick
  /-- POWER_ON_RESET (R191): the RESET input is driven and held. -/
  | powerOnReset
  /-- RESET_RELEASE (R191): the RESET input is released. -/
  | resetRelease
  /-- OPENER_ERROR (R162): a transfer whose first byte is `b`. -/
  | openerError (b : Byte)
  /-- FRAME_OPENER (R164): a transfer whose first byte is 0xC3. -/
  | frameOpener
  /-- OVERRUN (R168): a 0xC3 opener while the link is EXECUTING. -/
  | overrun
  /-- TRUNCATION (R165): SEL rises before the frame is complete. -/
  | truncation
  /-- CHECK_FAIL (R166): a frame is complete; `bytes` are its bytes after the opener. -/
  | checkFail (bytes : List Byte)
  /-- REPEAT (R167): a frame is complete; `bytes` are its bytes after the opener. -/
  | repeatFrame (bytes : List Byte)
  /-- COMMAND_FRAME (R169): a frame is complete; `bytes` are its bytes after the opener. -/
  | commandFrame (bytes : List Byte)
  /-- REPLY_FETCH (R170): a transfer whose first byte is 0x3C. -/
  | replyFetch
  /-- FETCH_END (R170): SEL rises on a fetch, or on a transfer that the link ignores, in which `n` bytes were
  clocked after the opener. -/
  | fetchEnd (n : Nat)
  /-- READ_COMMAND (R173). -/
  | readCommand
  /-- REGISTER_WRITE (R174). -/
  | registerWrite
  /-- SHADOW_RULE_WRITE (R48). -/
  | shadowRuleWrite
  /-- SHADOW_CLASS_WRITE (R48). -/
  | shadowClassWrite
  /-- COMMIT (R52). -/
  | commit
  /-- WITHDRAW (R54). -/
  | withdraw
  /-- REFILL_PERIOD_WRITE (R64). -/
  | refillPeriodWrite
  /-- AGE_LIMIT_WRITE (R26). -/
  | ageLimitWrite
  /-- PASS_RESERVE_WRITE (R23). -/
  | passReserveWrite
  /-- POOL_CAP_WRITE (R108). -/
  | poolCapWrite
  /-- POOL_LEVEL_WRITE (R107). -/
  | poolLevelWrite
  /-- SWEEP (R36). -/
  | sweep
  /-- REGULATOR_RESTART (R189). -/
  | regulatorRestart
  /-- EVENT_FLAG_CLEAR (R186). -/
  | eventFlagClear
  /-- ENABLE_MASK_WRITE (R187). -/
  | enableMaskWrite
  /-- AWAIT (R177). -/
  | await
  /-- AWAIT_LIMIT_ELAPSE (R177). -/
  | awaitLimitElapse
  /-- DELAY (R179). -/
  | delay
  /-- DELAY_ELAPSE (R179). -/
  | delayElapse
  /-- LINK_COUNTER_CLEAR (R180). -/
  | linkCounterClear
  /-- CLASS_TALLY_CLEAR (R116). -/
  | classTallyClear
  /-- GLOBAL_TALLY_CLEAR (R116). -/
  | globalTallyClear
  /-- GAUGE_SETTINGS_WRITE (R125). -/
  | gaugeSettingsWrite
  /-- ACCUMULATOR_LOW_WORD_READ (R123). -/
  | accumulatorLowWordRead
  /-- ACCUMULATOR_CLEAR (R124). -/
  | accumulatorClear
  /-- MONITOR_SETTINGS_WRITE (R139). -/
  | monitorSettingsWrite
  /-- DURATION_CLEAR (R137). -/
  | durationClear
  /-- CAPTURE_SETTINGS_WRITE (R146). -/
  | captureSettingsWrite
  /-- ARM (R149). -/
  | arm
  /-- TRIGGER (R152). -/
  | trigger
  /-- STOP (R154). -/
  | stop
  /-- CAPTURE_DATA_PORT_READ (R156). -/
  | captureDataPortRead
deriving DecidableEq, Repr

end Sys2Proof
end

