-- ==== Sys2Proof/Decode.lean ====
section
/-! DEFINITION. The command that a word spells by the table's bits: spec/opcode_table.json gives bits for no row. -/

namespace Sys2Proof

/-- No row of spec/opcode_table.json has bits ("fields" is empty in every row, and there is no match or
mask), so no word spells a command (notes/assumptions/21.md). -/
def decodeTableWord (_nbits _w : Nat) : Option Instr := none

end Sys2Proof
end

