-- ==== Sys2Proof/Config.lean ====
section
/-! DEFINITION. What is fixed in the part (capacities, identity, openers) and the values the spec leaves open. -/

namespace Sys2Proof.Config

/-- The capacities of panel 0 (R194), in its positions 2 to 7. -/
def tableEntries : Nat := 64
def holdSlots : Nat := 128
def rulesPerBank : Nat := 48
def classCount : Nat := 16
def gaugeCount : Nat := 8
def captureRecords : Nat := 512

/-- Panel 0, positions 0 and 1 (R194). -/
def partCode : Word := 0x00013216#32
def revision : Word := 1#32

/-- The two openers (R162). -/
def frameOpener : Byte := 0xC3#8
def fetchOpener : Byte := 0x3C#8

/-- The longest body a frame may have and be run, and the most reply data (R163, R169, R174). -/
def maxBody : Nat := 1024
def maxReplyData : Nat := 1024

/-- FREE VALUE (DESIGN CHOICE, notes/assumptions/7.md). One write of the age limit can expire requests of
the intake, of the hold queues and of the table. R26 and R93 order the expiries of one block, and R13 lets
the answers of different blocks leave in either order. The n-th such choice is `ageWritePick n`, of which
nothing is known: 0 names the intake, 1 the hold queues, 2 the table. -/
opaque ageWritePick : Nat → Fin 3

/-- FREE VALUE (DESIGN CHOICE, notes/assumptions/8.md). How many bytes of a transfer had been clocked after its
opener when a TRUNCATION cut it short: the row does not say, and SDO drove 0x00 for each (R162). The count of
the n-th free value drawn is `truncatedBytes n`, of which nothing is known. -/
opaque truncatedBytes : Nat → Nat

end Sys2Proof.Config
end

