-- ==== Sys2Proof/Machine/State.lean ====
section
/-! DEFINITION. The state of the part as plain data, block by block, and State.reset. -/

namespace Sys2Proof.Machine

/-- The reasons a step can stop the machine. The spec gives the part none: every event has its effect or
finds nothing and changes nothing, so no meaning answers with a fault and the type has no constructor. -/
inductive Fault
deriving DecidableEq, Repr

/-- The reasons a command is refused by the model. -/
inductive Refusal where
  /-- An arm of exec whose meaning is not written. Raised by no arm of this model. Safe. -/
  | notModelled (mnemonic : String)
  /-- Raised by TAKE for a term that no U-port message spells: a READ with write data, or a WRITE whose
  write data is not `len` bytes (R1). Safe: the hardware never receives it. -/
  | malformedRequest
deriving DecidableEq, Repr

/-! ### Requests inside the part -/

/-- The result of a rule or of a bank's default (R41). -/
inductive Result where
  | cls (c : ClassId)
  | pass
  | deny
deriving DecidableEq, Repr

/-- The classification a request carries through the part: a class or PASS (R7). -/
inductive Traffic where
  | cls (c : ClassId)
  | pass
deriving DecidableEq, Repr

/-- A request the part holds: the U-port's fields, and the stamp, classification, mark and epoch of its
take (R5, R7). `data` is the write data while it is present (R14). -/
structure Req where
  source  : Byte
  tag     : Byte
  kind    : ReqKind
  addr    : Addr
  len     : Len
  data    : List Byte
  stamp   : Stamp
  traffic : Traffic
  mark    : Bool
  epoch   : BitVec 16
deriving DecidableEq, Repr

/-- Why the intake register waits (R5, R9). -/
inductive WaitReason where
  | slot
  | entry
deriving DecidableEq, Repr

/-- The intake register (R5). -/
inductive IntakeReg where
  | empty
  | waiting (r : Req) (why : WaitReason)
deriving DecidableEq, Repr

/-- The five statuses of an answer (R4). -/
inductive AnswerStatus where
  | done
  | fault
  | denied
  | bounce
  | expired
deriving DecidableEq, Repr

/-- An answer at the U-port (R4). -/
structure Answer where
  source : Byte
  tag    : Byte
  status : AnswerStatus
  data   : List Byte
deriving DecidableEq, Repr

/-- A downstream request at the M-port (R2). -/
structure Downstream where
  tag    : EntryId
  source : Byte
  kind   : ReqKind
  addr   : Addr
  len    : Len
  data   : List Byte
deriving DecidableEq, Repr

/-! ### Classifier -/

/-- A rule of a bank (R41), in the field widths of R197. The length fields hold the length less 1. -/
structure Rule where
  valid      : Bool
  srcValue   : Byte
  srcMask    : Byte
  basePage   : BitVec 28
  limitPage  : BitVec 28
  kindRead   : Bool
  kindWrite  : Bool
  lenPresent : Bool
  lenMin1    : BitVec 8
  lenMax1    : BitVec 8
  result     : Result
  mark       : Bool
deriving DecidableEq, Repr

/-- A rule bank (R41). -/
structure Bank where
  rules : Vector Rule 48
  dflt  : Result
deriving DecidableEq, Repr

/-- What is wrong with a rule (R52). -/
inductive RuleCause where
  | baseAboveLimit
  | minAboveMax
deriving DecidableEq, Repr

/-- What is wrong with a class's settings (R52). -/
inductive ClassCause where
  | limitRange
  | quotaRange
  | raceZero
deriving DecidableEq, Repr

/-- The commit fault item (R51). -/
inductive CommitFault where
  | none
  | rule (r : Fin 48) (cause : RuleCause)
  | cls (c : ClassId) (cause : ClassCause)
deriving DecidableEq, Repr

structure Classifier where
  active        : Bank
  shadow        : Bank
  epoch         : BitVec 16
  commitPending : Bool
  fault         : CommitFault
deriving DecidableEq, Repr

/-! ### Admission unit -/

/-- The class modes (R63). -/
inductive Mode where
  | regulated
  | openMode
deriving DecidableEq, Repr

/-- The overflow policies (R74). -/
inductive Policy where
  | stall
  | bounce
deriving DecidableEq, Repr

/-- A class's settings (R59), in the field widths of R198. -/
structure ClassSettings where
  mode        : Mode
  refillRate  : BitVec 16
  cap         : BitVec 16
  limit       : BitVec 7
  quota       : BitVec 8
  policy      : Policy
  priority    : Fin 4
  raceEnable  : Bool
  quietTime   : BitVec 24
  activeBytes : BitVec 24
  lend        : Bool
  borrow      : Bool
deriving DecidableEq, Repr

/-- The head block reasons (R84). -/
inductive Reason where
  | none
  | credit
  | limit
  | entry
  | pool
deriving DecidableEq, Repr

/-- The quiet states (R99). -/
inductive QuietState where
  | active
  | quiet
deriving DecidableEq, Repr

/-- A class record (R59, R60, R82). `queue` is the class's hold queue, head first. -/
structure ClassRec where
  active      : ClassSettings
  shadow      : ClassSettings
  credit      : Int
  outstanding : Nat
  queue       : List Req
  reason      : Reason
  quiet       : QuietState
  raceTime    : Nat
  raceBytes   : Nat
deriving DecidableEq, Repr

/-- The admission unit. `refillStart` is the stamp from which the next refill period is counted (R64);
`retryNotices` counts the notices given to the intake whose re-try events are still to come (R94,
notes/assumptions/5.md). -/
structure Admission where
  classes      : Vector ClassRec 16
  refillPeriod : Nat
  refillStart  : Stamp
  poolLevel    : Nat
  poolCap      : Nat
  pointers     : Vector ClassId 4
  evalRunning  : Bool
  retryNotices : Nat
deriving DecidableEq, Repr

/-! ### Transaction table -/

/-- A table entry (R18). A FREE entry has no fields; write data is present while QUEUED only. -/
inductive Entry where
  | free
  | queued (r : Req) (borrowed : Bool)
  | issued (r : Req) (borrowed : Bool)
  | abandoned (r : Req) (borrowed : Bool)
deriving DecidableEq, Repr

/-- The transaction table (R18, R20, R23, R26). -/
structure Table where
  entries     : Vector Entry 64
  issueQ      : List EntryId
  passReserve : Nat
  ageLimit    : Nat
deriving DecidableEq, Repr

/-! ### Gauge block -/

/-- The thirteen tallies of a class (R112). -/
structure Tallies where
  arrivals       : Word
  held           : Word
  admitted       : Word
  readBytes      : Word
  writeBytes     : Word
  borrowedBytes  : Word
  bounced        : Word
  expired        : Word
  completedOk    : Word
  completedFault : Word
  latencySum     : Word
  latencyMax     : Word
  late           : Word
deriving DecidableEq, Repr

/-- An input of a gauge (R118). -/
inductive Input where
  | cls (c : ClassId)
  | pass
  | all
  | none
deriving DecidableEq, Repr

/-- The quantity of a gauge (R119). -/
inductive Quantity where
  | readBytes
  | writeBytes
  | allBytes
  | admissions
  | bounces
  | heldLevel
deriving DecidableEq, Repr

/-- The combine setting (R121). -/
inductive Combine where
  | a
  | b
  | aPlusB
  | aMinusB
deriving DecidableEq, Repr

/-- The sign modes (R121). -/
inductive SignMode where
  | positive
  | negative
  | signed
  | magnitude
deriving DecidableEq, Repr

/-- A gauge's settings (R118). -/
structure GaugeSettings where
  enable   : Bool
  inA      : Input
  inB      : Input
  quantity : Quantity
  combine  : Combine
  sign     : SignMode
  period   : BitVec 16
deriving DecidableEq, Repr

/-- A gauge (R118, R122, R123). `start` is the stamp at which the current period began. -/
structure Gauge where
  settings : GaugeSettings
  a        : Nat
  b        : Nat
  start    : Stamp
  acc      : BitVec 48
  latch    : Word
  wrapped  : Bool
deriving DecidableEq, Repr

/-- A monitor's settings (R128), in the field widths of R200; the thresholds are signed. -/
structure MonSettings where
  enable : Bool
  upper  : Word
  lower  : Word
  window : BitVec 8
  nh     : BitVec 8
  nl     : BitVec 8
  mh     : BitVec 8
  ml     : BitVec 8
  mc     : BitVec 8
deriving DecidableEq, Repr

/-- The monitor states (R136). -/
inductive MonState where
  | normal
  | over
  | under
deriving DecidableEq, Repr

/-- The verdicts of a window (R131); `none` before the first. -/
inductive Verdict where
  | none
  | high
  | low
  | normal
deriving DecidableEq, Repr

/-- A monitor's live state but for its durations (R129): what a restart returns to its start (R139). -/
structure MonLive where
  state     : MonState
  pos       : Nat
  high      : Nat
  low       : Nat
  verdict   : Verdict
  highRun   : Nat
  lowRun    : Nat
  clearRun  : Nat
deriving DecidableEq, Repr

/-- A rate monitor (R128, R129, R137). -/
structure Monitor where
  settings     : MonSettings
  live         : MonLive
  overWindows  : Nat
  underWindows : Nat
deriving DecidableEq, Repr

/-- The gauge block (R112, R113, R118, R128). -/
structure GaugeBlock where
  tallies       : Vector Tallies 16
  denied        : Word
  passAdmitted  : Word
  passCompleted : Word
  orphans       : Word
  sweeps        : Word
  gauges        : Vector Gauge 8
  monitors      : Vector Monitor 8
deriving DecidableEq, Repr

/-! ### Capture unit -/

/-- Where an expired request stood (R144). -/
inductive ExpiredAt where
  | intake
  | held
  | queued
  | issued
deriving DecidableEq, Repr

/-- The trigger sources (R145, R151). -/
inductive TrigSource where
  | command
  | expired
  | fault
  | bounce
  | monOver (g : GaugeId)
  | monUnder (g : GaugeId)
deriving DecidableEq, Repr

/-- The kind of a record with its detail (R143, R144, R145). -/
inductive RecKind where
  | held
  | admitted (credit : Int) (borrowed : Bool)
  | completed (latency : Word) (fault : Bool)
  | expired (stood : ExpiredAt)
  | bounced
  | denied
  | late
  | mark (src : TrigSource)
deriving DecidableEq, Repr

/-- The fields of a record that come from a request (R143). `cls` is none for NONE; a MARK of a command or
a monitor has every field 0 (R145). -/
structure RecBody where
  cls    : Option ClassId
  source : Byte
  tag    : Byte
  kind   : ReqKind
  addr   : Addr
  len    : Nat
  epoch  : BitVec 16
  mark   : Bool
deriving DecidableEq, Repr

/-- A capture record (R143). -/
structure Rec where
  kind  : RecKind
  stamp : Stamp
  body  : RecBody
deriving DecidableEq, Repr

/-- The capture settings (R146) as the fields of R201: `kindSet` bit 0 HELD to bit 6 LATE, `classMask` bit c
class c and bit 16 NONE, `trigAnswers` bit 0 EXPIRED, 1 FAULT, 2 BOUNCE. -/
structure CapSettings where
  preCount    : Nat
  postCount   : Nat
  kindSet     : BitVec 7
  markedOnly  : Bool
  classMask   : BitVec 17
  trigAnswers : BitVec 3
  trigOver    : BitVec 8
  trigUnder   : BitVec 8
deriving DecidableEq, Repr

/-- The capture states (R148). -/
inductive CapState where
  | idle
  | armed
  | triggered
  | done
deriving DecidableEq, Repr

/-- The capture unit (R142, R148). Records held is `buffer.length`. -/
structure Capture where
  settings     : CapSettings
  state        : CapState
  buffer       : List Rec
  preHeld      : Nat
  postAppended : Nat
  dropped      : Nat
  wordPos      : Fin 8
deriving DecidableEq, Repr

/-! ### Service link -/

/-- The status codes of a reply (R174, R196). -/
inductive Status where
  | ok
  | check
  | parse
  | range
  | access
  | state
  | invalid
  | full
deriving DecidableEq, Repr

/-- A reply frame's fields (R169, R196). -/
structure Reply where
  seq      : Byte
  status   : Status
  failIdx  : Nat
  executed : Nat
  data     : List Byte
deriving DecidableEq, Repr

/-- The frame under way in EXECUTING: its sequence, the bytes of the body not yet run, the number of
commands run, and the reply data so far (R169, R171). -/
structure Run where
  seq  : Byte
  body : List Byte
  nRun : Nat
  data : List Byte
deriving DecidableEq, Repr

/-- The link states (R164). RECEIVING remembers whether it came from REPLY_READY; REPLY_READY whether a
fetch is under way (R170). -/
inductive LinkState where
  | idle
  | receiving (fromReady : Bool)
  | executing (run : Run)
  | replyReady (fetching : Bool)
deriving DecidableEq, Repr

/-- The wait of the running frame (R177, R179): its word-0 mask or its length, and the stamp of its write. -/
inductive Wait where
  | none
  | await (mask0 : BitVec 16) (since : Stamp)
  | delay (n : Nat) (since : Stamp)
deriving DecidableEq, Repr

/-- The way an AWAIT ended (R177). -/
inductive WaitWay where
  | none
  | event
  | limit
deriving DecidableEq, Repr

/-- The six link counters (R180), each 0..65535. -/
structure LinkCounters where
  openerError  : Nat
  truncation   : Nat
  checkFail    : Nat
  overrun      : Nat
  droppedReply : Nat
  repeats      : Nat
deriving DecidableEq, Repr

/-- The select line SEL (R161, R162). `ignored`: low since before RESET was released, so the link ignores the
rest of that SEL-low period. -/
inductive Sel where
  | high
  | low
  | ignored
deriving DecidableEq, Repr

/-- The service link (R162, R164, R172, R177, R180), with its input line SEL. -/
structure Link where
  sel        : Sel
  state      : LinkState
  wait       : Wait
  stored     : Option Reply
  kept       : Option Reply
  cursors    : Vector (BitVec 16) 8
  counters   : LinkCounters
  awaitMask1 : BitVec 16
  awaitLimit : Nat
  awaitTime  : Nat
  awaitWay   : WaitWay
deriving DecidableEq, Repr

/-! ### Control block and the whole part -/

/-- The control block (R182, R185, R187, R191). -/
structure Control where
  resetHeld : Bool
  time      : Stamp
  flags0    : BitVec 16
  flags1    : BitVec 16
  mask0     : BitVec 16
  mask1     : BitVec 16
deriving DecidableEq, Repr

/-- The part: its eight blocks, and the model's own fields: what has left the part (`answers`, `sentDown`,
`sdo`), the number of free choices drawn (`freePicks`) and the queue of commands (`pending`). -/
structure State where
  control    : Control
  intake     : IntakeReg
  classifier : Classifier
  admission  : Admission
  table      : Table
  gauge      : GaugeBlock
  capture    : Capture
  link       : Link
  answers    : List Answer
  sentDown   : List Downstream
  sdo        : List Byte
  freePicks  : Nat
  pending    : List Instr
deriving DecidableEq, Repr

/-! ### Power-on values -/

/-- A rule after power-on reset (R41). -/
def Rule.reset : Rule :=
  { valid := false, srcValue := 0, srcMask := 0, basePage := 0, limitPage := 0, kindRead := true,
    kindWrite := true, lenPresent := false, lenMin1 := 0, lenMax1 := 0, result := .cls 0, mark := false }

/-- A bank after power-on reset (R41). -/
def Bank.reset : Bank :=
  { rules := Vector.replicate 48 Rule.reset, dflt := .pass }

def Classifier.reset : Classifier :=
  { active := Bank.reset, shadow := Bank.reset, epoch := 0, commitPending := false, fault := .none }

/-- A class's settings after power-on reset (R59). -/
def ClassSettings.reset : ClassSettings :=
  { mode := .openMode, refillRate := 0, cap := 0, limit := 64, quota := 0, policy := .bounce,
    priority := 3, raceEnable := false, quietTime := 1000, activeBytes := 4096, lend := false,
    borrow := false }

/-- A class record after power-on reset (R60, R80). -/
def ClassRec.reset : ClassRec :=
  { active := ClassSettings.reset, shadow := ClassSettings.reset, credit := 0, outstanding := 0,
    queue := [], reason := .none, quiet := .active, raceTime := 0, raceBytes := 0 }

/-- The admission unit after power-on reset (R64, R80, R98, R106). -/
def Admission.reset : Admission :=
  { classes := Vector.replicate 16 ClassRec.reset, refillPeriod := 100, refillStart := 0,
    poolLevel := 0, poolCap := 0, pointers := Vector.replicate 4 15, evalRunning := false,
    retryNotices := 0 }

/-- The table after power-on reset (R39). -/
def Table.reset : Table :=
  { entries := Vector.replicate 64 .free, issueQ := [], passReserve := 0, ageLimit := 0 }

/-- All thirteen tallies at 0 (R116, R117). -/
def Tallies.zero : Tallies :=
  { arrivals := 0, held := 0, admitted := 0, readBytes := 0, writeBytes := 0, borrowedBytes := 0,
    bounced := 0, expired := 0, completedOk := 0, completedFault := 0, latencySum := 0,
    latencyMax := 0, late := 0 }

/-- A gauge's settings after power-on reset (R118). -/
def GaugeSettings.reset : GaugeSettings :=
  { enable := false, inA := .none, inB := .none, quantity := .allBytes, combine := .a, sign := .signed,
    period := 1000 }

/-- A gauge after power-on reset (R127). -/
def Gauge.reset : Gauge :=
  { settings := GaugeSettings.reset, a := 0, b := 0, start := 0, acc := 0, latch := 0, wrapped := false }

/-- A monitor's settings after power-on reset (R128). -/
def MonSettings.reset : MonSettings :=
  { enable := false, upper := 0x7FFFFFFF#32, lower := 0x80000000#32, window := 16, nh := 0, nl := 0,
    mh := 4, ml := 4, mc := 4 }

/-- A monitor's live state at its start (R129, R139). -/
def MonLive.start : MonLive :=
  { state := .normal, pos := 0, high := 0, low := 0, verdict := .none, highRun := 0, lowRun := 0,
    clearRun := 0 }

/-- A monitor after power-on reset (R140). -/
def Monitor.reset : Monitor :=
  { settings := MonSettings.reset, live := MonLive.start, overWindows := 0, underWindows := 0 }

def GaugeBlock.reset : GaugeBlock :=
  { tallies := Vector.replicate 16 Tallies.zero, denied := 0, passAdmitted := 0, passCompleted := 0,
    orphans := 0, sweeps := 0, gauges := Vector.replicate 8 Gauge.reset,
    monitors := Vector.replicate 8 Monitor.reset }

/-- The capture settings after power-on reset (R146, R160). -/
def CapSettings.reset : CapSettings :=
  { preCount := 256, postCount := 255, kindSet := 0x7F#7, markedOnly := false, classMask := 0x1FFFF#17,
    trigAnswers := 0, trigOver := 0, trigUnder := 0 }

def Capture.reset : Capture :=
  { settings := CapSettings.reset, state := .idle, buffer := [], preHeld := 0, postAppended := 0,
    dropped := 0, wordPos := 0 }

/-- All six link counters at 0 (R180). -/
def LinkCounters.zero : LinkCounters :=
  { openerError := 0, truncation := 0, checkFail := 0, overrun := 0, droppedReply := 0, repeats := 0 }

/-- The service link after power-on reset (R181), with SEL high at the release (notes/assumptions/18.md). -/
def Link.reset : Link :=
  { sel := .high, state := .idle, wait := .none, stored := none, kept := none, cursors := Vector.replicate 8 0,
    counters := LinkCounters.zero, awaitMask1 := 0, awaitLimit := 0, awaitTime := 0, awaitWay := .none }

/-- The control block after power-on reset (R182, R185, R187). -/
def Control.reset : Control :=
  { resetHeld := false, time := 0, flags0 := 0, flags1 := 0, mask0 := 0, mask1 := 0 }

/-- The part right after the RESET input is released (R191, notes/assumptions/2.md). -/
def State.reset : State :=
  { control := Control.reset, intake := .empty, classifier := Classifier.reset,
    admission := Admission.reset, table := Table.reset, gauge := GaugeBlock.reset,
    capture := Capture.reset, link := Link.reset, answers := [], sentDown := [], sdo := [],
    freePicks := 0, pending := [] }

end Sys2Proof.Machine
end

