-- ==== Sys2Proof/Machine/Flags.lean ====
section
/-! DEFINITION. The event flags, the enable masks and ALERT (R185, R186, R187, R188). -/

namespace Sys2Proof.Machine

/-- The 32 event flags (R185). -/
inductive Flag where
  | commitDone
  | expired
  | abandoned
  | late
  | orphan
  | fault
  | denied
  | bounced
  | stalled
  | quiet
  | wake
  | gaugeWrap
  | captureTriggered
  | captureDone
  | linkError
  | swept
  | monOver (g : GaugeId)
  | monUnder (g : GaugeId)
deriving DecidableEq, Repr

/-- The bit a flag has in event word 0; 0 for a flag of word 1 (R203). -/
def Flag.bits0 : Flag → BitVec 16
  | .commitDone => 0x0001#16
  | .expired => 0x0002#16
  | .abandoned => 0x0004#16
  | .late => 0x0008#16
  | .orphan => 0x0010#16
  | .fault => 0x0020#16
  | .denied => 0x0040#16
  | .bounced => 0x0080#16
  | .stalled => 0x0100#16
  | .quiet => 0x0200#16
  | .wake => 0x0400#16
  | .gaugeWrap => 0x0800#16
  | .captureTriggered => 0x1000#16
  | .captureDone => 0x2000#16
  | .linkError => 0x4000#16
  | .swept => 0x8000#16
  | .monOver _ => 0
  | .monUnder _ => 0

/-- The bit a flag has in event word 1: MON_OVER(g) at g, MON_UNDER(g) at 8 + g; 0 for a flag of word 0
(R203). -/
def Flag.bits1 : Flag → BitVec 16
  | .monOver g => 1#16 <<< g.val
  | .monUnder g => 1#16 <<< (8 + g.val)
  | .commitDone => 0
  | .expired => 0
  | .abandoned => 0
  | .late => 0
  | .orphan => 0
  | .fault => 0
  | .denied => 0
  | .bounced => 0
  | .stalled => 0
  | .quiet => 0
  | .wake => 0
  | .gaugeWrap => 0
  | .captureTriggered => 0
  | .captureDone => 0
  | .linkError => 0
  | .swept => 0

/-- A raise sets its own flag and no other; a flag already set stays set (R185). -/
def raise (f : Flag) (s : State) : State :=
  { s with control := { s.control with
      flags0 := s.control.flags0 ||| f.bits0, flags1 := s.control.flags1 ||| f.bits1 } }

/-- A raise that takes place only when `b` holds. -/
def raiseIf (b : Bool) (f : Flag) (s : State) : State := if b then raise f s else s

/-- The flag is set. -/
def State.flagSet (s : State) (f : Flag) : Bool :=
  (s.control.flags0 &&& f.bits0) != 0 || (s.control.flags1 &&& f.bits1) != 0

/-- A write of event word 0 clears every flag whose bit is 1 (R186). -/
def clearFlags0 (v : BitVec 16) (s : State) : State :=
  { s with control := { s.control with flags0 := s.control.flags0 &&& ~~~v } }

/-- A write of event word 1 clears every flag whose bit is 1 (R186). -/
def clearFlags1 (v : BitVec 16) (s : State) : State :=
  { s with control := { s.control with flags1 := s.control.flags1 &&& ~~~v } }

/-- A write of the enable mask of word 0 (R187). Every one of the 16 bits names a flag. -/
def setMask0 (v : BitVec 16) (s : State) : State :=
  { s with control := { s.control with mask0 := v } }

/-- A write of the enable mask of word 1 (R187). -/
def setMask1 (v : BitVec 16) (s : State) : State :=
  { s with control := { s.control with mask1 := v } }

/-- ALERT is high while at least one flag is set whose mask bit is set; low while RESET is held (R188). -/
def State.alert (s : State) : Bool :=
  !s.control.resetHeld &&
    ((s.control.flags0 &&& s.control.mask0) != 0 || (s.control.flags1 &&& s.control.mask1) != 0)

/-- A flag of the two masks of an AWAIT is set (R177). -/
def maskedFlagSet (mask0 mask1 : BitVec 16) (s : State) : Bool :=
  (s.control.flags0 &&& mask0) != 0 || (s.control.flags1 &&& mask1) != 0

end Sys2Proof.Machine
end

