-- ==== Sys2Proof/Machine/Operands.lean ====
section
/-! DEFINITION. The layouts of spec/12: bit fields of elements, bytes and CRC of frames, the command header, and the words of records. -/

namespace Sys2Proof.Machine

/-! ### Bits and bytes (R161, R192) -/

/-- The `w` bits of `v` from bit `lo` up. -/
def field (v : Word) (lo w : Nat) : BitVec w := v.extractLsb' lo w

/-- `v`, cut to `w` bits, at bit `lo` of an element. -/
def put (lo w v : Nat) : Word := BitVec.ofNat 32 (v % 2 ^ w * 2 ^ lo)

/-- A flag as a number. -/
def b2n (b : Bool) : Nat := if b then 1 else 0

/-- The four bytes of an element, least significant first (R161). -/
def wordBytes (v : Word) : List Byte :=
  [field v 0 8, field v 8 8, field v 16 8, field v 24 8]

/-- The element whose bytes, least significant first, are the four given (R161). -/
def bytesWord (b0 b1 b2 b3 : Byte) : Word := b3 ++ b2 ++ b1 ++ b0

/-- The two bytes of a 16-bit field, least significant first (R161). -/
def halfBytes (v : BitVec 16) : List Byte := [v.extractLsb' 0 8, v.extractLsb' 8 8]

/-- A 16-bit field from its two bytes, least significant first (R161). -/
def bytesHalf (b0 b1 : Byte) : BitVec 16 := b1 ++ b0

/-! ### The CRC (R163) -/

/-- One bit of the CRC-16 with polynomial 0x1021. -/
def crcBit (c : BitVec 16) : BitVec 16 :=
  if c.msb then (c <<< 1) ^^^ 0x1021#16 else c <<< 1

/-- `n` bits of the CRC. -/
def crcBits : Nat → BitVec 16 → BitVec 16
  | 0, c => c
  | n + 1, c => crcBits n (crcBit c)

/-- One byte fed to the CRC, most significant bit first, without reflection. -/
def crcByte (c : BitVec 16) (b : Byte) : BitVec 16 :=
  crcBits 8 (c ^^^ (b ++ (0#8 : Byte)))

/-- The CRC of a run of bytes: initial value 0xFFFF, no final inversion. -/
def crc16 (bytes : List Byte) : BitVec 16 := bytes.foldl crcByte 0xFFFF#16

/-! ### Frames (R163, R196) -/

/-- A complete command frame after its opener. -/
structure Frame where
  seq  : Byte
  body : List Byte
  crc  : BitVec 16
deriving DecidableEq, Repr

/-- The bytes the CRC of a frame covers: sequence, body length, body (R163). -/
def Frame.covered (f : Frame) : List Byte :=
  f.seq :: halfBytes (BitVec.ofNat 16 f.body.length) ++ f.body

/-- The CRC of the frame checks good (R163). -/
def Frame.good (f : Frame) : Bool := crc16 f.covered == f.crc

/-- The bytes of a frame after its opener (R196). -/
def Frame.bytes (f : Frame) : List Byte := f.covered ++ halfBytes f.crc

/-- The frame that the bytes after an opener complete, if they complete one; bytes after the CRC are
ignored (R163). -/
def parseFrame (bytes : List Byte) : Option Frame :=
  match bytes with
  | seq :: lo :: hi :: rest =>
    let n := (bytesHalf lo hi).toNat
    match rest.drop n with
    | c0 :: c1 :: _ => some { seq := seq, body := rest.take n, crc := bytesHalf c0 c1 }
    | _ => none
  | _ => none

/-- The frame with sequence `seq` and body `body` and its right CRC: what firmware sends (R196). -/
def mkFrame (seq : Byte) (body : List Byte) : Frame :=
  { seq := seq, body := body,
    crc := crc16 ({ seq := seq, body := body, crc := 0 } : Frame).covered }

/-! ### Replies (R196) -/

/-- The status codes (R196). -/
def Status.code : Status → Byte
  | .ok => 0x01#8
  | .check => 0x02#8
  | .parse => 0x03#8
  | .range => 0x04#8
  | .access => 0x05#8
  | .state => 0x06#8
  | .invalid => 0x07#8
  | .full => 0x08#8

/-- The bytes of a reply that its CRC covers: sequence to the end of the data (R169). -/
def Reply.covered (r : Reply) : List Byte :=
  r.seq :: r.status.code :: (halfBytes (BitVec.ofNat 16 r.failIdx) ++
    halfBytes (BitVec.ofNat 16 r.executed) ++ halfBytes (BitVec.ofNat 16 r.data.length) ++ r.data)

/-- The bytes of a reply frame, as a fetch clocks them out (R170, R196). -/
def Reply.bytes (r : Reply) : List Byte := r.covered ++ halfBytes (crc16 r.covered)

/-! ### Commands (R171, R196) -/

/-- A command as the link reads it from the body. `whole` says that its count is not 0 and that its
position and its write data are there in full; `rest` is the body after it. -/
structure Cmd where
  write   : Bool
  posFlag : Bool
  panel   : Fin 8
  step    : Bool
  count   : Nat
  pos     : Option (BitVec 16)
  words   : List Word
  whole   : Bool
  rest    : List Byte
deriving DecidableEq, Repr

/-- The first `n` elements of write data (R171), as many as are there in full, and the bytes left. -/
def takeWords : Nat → List Byte → List Word × List Byte
  | n + 1, b0 :: b1 :: b2 :: b3 :: rest =>
    let r := takeWords n rest
    (bytesWord b0 b1 b2 b3 :: r.1, r.2)
  | _, rest => ([], rest)

/-- The write data after a header and position (R171); it is whole when as many elements are there as the
count says. -/
def parseData (h : BitVec 16) (pos : Option (BitVec 16)) (posWhole : Bool) (rest : List Byte) : Cmd :=
  let count := (h.extractLsb' 0 7).toNat
  let write := h.getLsbD 15
  let r := if write then takeWords count rest else ([], rest)
  { write := write, posFlag := h.getLsbD 14, panel := (h.extractLsb' 11 3).toFin, step := h.getLsbD 10,
    count := count, pos := pos, words := r.1,
    whole := posWhole && count != 0 && (!write || r.1.length == count), rest := r.2 }

/-- The command at the head of a body; none when its header is incomplete (R171). -/
def parseCmd (body : List Byte) : Option Cmd :=
  match body with
  | h0 :: h1 :: rest =>
    let h := bytesHalf h0 h1
    if h.getLsbD 14 then
      match rest with
      | p0 :: p1 :: rest' => some (parseData h (some (bytesHalf p0 p1)) true rest')
      | _ => some (parseData h none false [])
    else some (parseData h none true rest)
  | _ => none

/-- The header of a command (R196). -/
def header (write posFlag : Bool) (panel : Fin 8) (step : Bool) (count : BitVec 7) : BitVec 16 :=
  BitVec.ofNat 16 (b2n write * 2 ^ 15 + b2n posFlag * 2 ^ 14 + panel.val * 2 ^ 11 + b2n step * 2 ^ 10) |||
    count.zeroExtend 16

/-- The bytes of a write command (R171): what firmware sends. -/
def writeBytes (panel : Fin 8) (pos : Option (BitVec 16)) (step : Bool) (words : List Word) : List Byte :=
  halfBytes (header true pos.isSome panel step (BitVec.ofNat 7 words.length)) ++
    (match pos with | some p => halfBytes p | none => []) ++ words.flatMap wordBytes

/-- The bytes of a read command (R171): what firmware sends. -/
def readBytes (panel : Fin 8) (pos : Option (BitVec 16)) (step : Bool) (count : BitVec 7) : List Byte :=
  halfBytes (header false pos.isSome panel step count) ++
    (match pos with | some p => halfBytes p | none => [])

/-- The sizes of the panels (R193). -/
def panelSize (p : Fin 8) : Nat :=
  match p.val with
  | 0 => 8
  | 1 => 706
  | 2 => 576
  | 3 => 521
  | 4 => 128
  | 5 => 12
  | 6 => 30
  | _ => 516

/-- Where a command's first element is, given its panel's cursor (R172). -/
def Cmd.start (k : Cmd) (cursor : BitVec 16) : Nat :=
  match k.pos with
  | some p => p.toNat
  | none => cursor.toNat

/-- The positions of a command's elements, in element order (R172). A command whose announced position is
incomplete has none. -/
def Cmd.positions (k : Cmd) (cursor : BitVec 16) : List Nat :=
  if k.posFlag && k.pos.isNone then []
  else if k.step then (List.range k.count).map (fun i => k.start cursor + i)
  else List.replicate k.count (k.start cursor)

/-- The cursor after the command (R172). -/
def Cmd.endCursor (k : Cmd) (cursor : BitVec 16) : BitVec 16 :=
  BitVec.ofNat 16 (if k.step then k.start cursor + k.count else k.start cursor)

/-! ### Codes (R197, R200) -/

/-- The class with number `n`. -/
def classOf (n : Nat) : Option ClassId := if h : n < 16 then some ⟨n, h⟩ else none

/-- A result's code: 0..15 class, 16 PASS, 17 DENY (R197). -/
def Result.code : Result → Nat
  | .cls c => c.val
  | .pass => 16
  | .deny => 17

/-- The result a code names, if it names one (R48, R197). -/
def Result.ofCode (n : Nat) : Option Result :=
  match classOf n with
  | some c => some (.cls c)
  | none => if n = 16 then some .pass else if n = 17 then some .deny else none

/-- A traffic code: 0..15 class, 16 PASS (R203, R204). -/
def Traffic.code : Traffic → Nat
  | .cls c => c.val
  | .pass => 16

/-- A record's class code: 0..15, 16 NONE (R202). -/
def classCode : Option ClassId → Nat
  | some c => c.val
  | none => 16

/-- A gauge input's code: 0..15 class, 16 PASS, 17 ALL, 18 NONE (R200). -/
def Input.code : Input → Nat
  | .cls c => c.val
  | .pass => 16
  | .all => 17
  | .none => 18

/-- The input a code names, if it names one (R118, R200). -/
def Input.ofCode (n : Nat) : Option Input :=
  match classOf n with
  | some c => some (.cls c)
  | Option.none => if n = 16 then some .pass else if n = 17 then some .all else if n = 18 then some .none else Option.none

/-- Quantity codes (R200). -/
def Quantity.code : Quantity → Nat
  | .readBytes => 0
  | .writeBytes => 1
  | .allBytes => 2
  | .admissions => 3
  | .bounces => 4
  | .heldLevel => 5

def Quantity.ofCode : Nat → Option Quantity
  | 0 => some .readBytes
  | 1 => some .writeBytes
  | 2 => some .allBytes
  | 3 => some .admissions
  | 4 => some .bounces
  | 5 => some .heldLevel
  | _ => none

/-- Combine codes (R200). -/
def Combine.code : Combine → Nat
  | .a => 0
  | .b => 1
  | .aPlusB => 2
  | .aMinusB => 3

def Combine.ofCode (v : BitVec 2) : Combine :=
  match v.toNat with
  | 0 => .a
  | 1 => .b
  | 2 => .aPlusB
  | _ => .aMinusB

/-- Sign mode codes (R200). -/
def SignMode.code : SignMode → Nat
  | .positive => 0
  | .negative => 1
  | .signed => 2
  | .magnitude => 3

def SignMode.ofCode (v : BitVec 2) : SignMode :=
  match v.toNat with
  | 0 => .positive
  | 1 => .negative
  | 2 => .signed
  | _ => .magnitude

/-- Request kind code (R202, R204). -/
def kindCode : ReqKind → Nat
  | .read => 0
  | .write => 1

/-- Head block reason codes (R199). -/
def Reason.code : Reason → Nat
  | .none => 0
  | .credit => 1
  | .limit => 2
  | .entry => 3
  | .pool => 4

/-! ### Rule and class setting elements (R197, R198) -/

/-- Word `w` of a rule (R197). -/
def Rule.word (r : Rule) (w : Nat) : Word :=
  match w with
  | 0 => put 0 1 (b2n r.valid) ||| put 1 1 (b2n r.kindRead) ||| put 2 1 (b2n r.kindWrite) |||
      put 3 1 (b2n r.mark) ||| put 8 5 r.result.code ||| put 16 8 r.srcValue.toNat |||
      put 24 8 r.srcMask.toNat
  | 1 => put 0 28 r.basePage.toNat
  | 2 => put 0 28 r.limitPage.toNat
  | 3 => put 0 1 (b2n r.lenPresent) ||| put 8 8 r.lenMin1.toNat ||| put 16 8 r.lenMax1.toNat
  | _ => 0

/-- A write of word `w` of a shadow rule; none when the write is refused INVALID: a result code that
names nothing, or a kinds field that names neither kind (R48, R197). -/
def Rule.write (r : Rule) (w : Nat) (v : Word) : Option Rule :=
  match w with
  | 0 =>
    match Result.ofCode (field v 8 5).toNat with
    | some res =>
      if v.getLsbD 1 || v.getLsbD 2 then
        some { r with valid := v.getLsbD 0, kindRead := v.getLsbD 1, kindWrite := v.getLsbD 2,
                      mark := v.getLsbD 3, result := res, srcValue := field v 16 8,
                      srcMask := field v 24 8 }
      else none
    | none => none
  | 1 => some { r with basePage := field v 0 28 }
  | 2 => some { r with limitPage := field v 0 28 }
  | 3 => some { r with lenPresent := v.getLsbD 0, lenMin1 := field v 8 8, lenMax1 := field v 16 8 }
  | _ => some r

/-- Word `w` of a class's settings (R198). -/
def ClassSettings.word (c : ClassSettings) (w : Nat) : Word :=
  match w with
  | 0 => put 0 16 c.refillRate.toNat ||| put 16 16 c.cap.toNat
  | 1 => put 0 7 c.limit.toNat ||| put 8 8 c.quota.toNat |||
      put 16 1 (match c.mode with | .regulated => 0 | .openMode => 1) |||
      put 17 1 (match c.policy with | .stall => 0 | .bounce => 1) ||| put 18 2 c.priority.val |||
      put 20 1 (b2n c.raceEnable) ||| put 21 1 (b2n c.lend) ||| put 22 1 (b2n c.borrow)
  | 2 => put 0 24 c.quietTime.toNat
  | 3 => put 0 24 c.activeBytes.toNat
  | _ => 0

/-- A write of word `w` of a class's shadow settings; no value is refused (R198). -/
def ClassSettings.write (c : ClassSettings) (w : Nat) (v : Word) : ClassSettings :=
  match w with
  | 0 => { c with refillRate := field v 0 16, cap := field v 16 16 }
  | 1 => { c with limit := field v 0 7, quota := field v 8 8,
                  mode := if v.getLsbD 16 then .openMode else .regulated,
                  policy := if v.getLsbD 17 then .bounce else .stall,
                  priority := (field v 18 2).toFin, raceEnable := v.getLsbD 20,
                  lend := v.getLsbD 21, borrow := v.getLsbD 22 }
  | 2 => { c with quietTime := field v 0 24 }
  | 3 => { c with activeBytes := field v 0 24 }
  | _ => c

/-! ### Gauge and monitor setting elements (R200) -/

/-- Element 0 or 1 of a gauge's settings (R200). -/
def GaugeSettings.word (g : GaugeSettings) (w : Nat) : Word :=
  match w with
  | 0 => put 0 1 (b2n g.enable) ||| put 8 5 g.inA.code ||| put 16 5 g.inB.code |||
      put 24 3 g.quantity.code ||| put 28 2 g.combine.code ||| put 30 2 g.sign.code
  | _ => put 0 16 g.period.toNat

/-- A write of element 0 or 1 of a gauge's settings; none when it is refused INVALID (R118, R200). -/
def GaugeSettings.write (g : GaugeSettings) (w : Nat) (v : Word) : Option GaugeSettings :=
  match w with
  | 0 =>
    match Input.ofCode (field v 8 5).toNat, Input.ofCode (field v 16 5).toNat,
          Quantity.ofCode (field v 24 3).toNat with
    | some a, some b, some q =>
      some { g with enable := v.getLsbD 0, inA := a, inB := b, quantity := q,
                    combine := Combine.ofCode (field v 28 2), sign := SignMode.ofCode (field v 30 2) }
    | _, _, _ => none
  | _ => if field v 0 16 = 0 then none else some { g with period := field v 0 16 }

/-- Element 6, 7, 8 or 9 of a monitor's settings (R200). -/
def MonSettings.word (m : MonSettings) (w : Nat) : Word :=
  match w with
  | 6 => put 0 1 (b2n m.enable) ||| put 8 8 m.window.toNat ||| put 16 8 m.nh.toNat |||
      put 24 8 m.nl.toNat
  | 7 => put 0 8 m.mh.toNat ||| put 8 8 m.ml.toNat ||| put 16 8 m.mc.toNat
  | 8 => m.upper
  | _ => m.lower

/-- A write of element 6, 7, 8 or 9 of a monitor's settings; none when a field is out of its range. The
relation of the thresholds is checked on the whole command (R128, `thresholdsOk`). -/
def MonSettings.write (m : MonSettings) (w : Nat) (v : Word) : Option MonSettings :=
  match w with
  | 6 =>
    if field v 8 8 = 0 ∨ field v 16 8 = 255 ∨ field v 24 8 = 255 then none
    else some { m with enable := v.getLsbD 0, window := field v 8 8, nh := field v 16 8,
                       nl := field v 24 8 }
  | 7 =>
    if field v 0 8 = 0 ∨ field v 8 8 = 0 ∨ field v 16 8 = 0 then none
    else some { m with mh := field v 0 8, ml := field v 8 8, mc := field v 16 8 }
  | 8 => some { m with upper := v }
  | _ => some { m with lower := v }

/-- The upper threshold is above the lower one, both read as signed numbers (R128). -/
def MonSettings.thresholdsOk (m : MonSettings) : Bool := decide (m.lower.toInt < m.upper.toInt)

/-! ### Capture setting elements and record words (R201, R202) -/

/-- Element 0 to 4 of the capture settings (R201). -/
def CapSettings.word (c : CapSettings) (w : Nat) : Word :=
  match w with
  | 0 => BitVec.ofNat 32 c.preCount
  | 1 => BitVec.ofNat 32 c.postCount
  | 2 => put 0 7 c.kindSet.toNat ||| put 8 1 (b2n c.markedOnly)
  | 3 => put 0 17 c.classMask.toNat
  | _ => put 0 3 c.trigAnswers.toNat ||| put 8 8 c.trigOver.toNat ||| put 16 8 c.trigUnder.toNat

/-- A write of element 0 to 4 of the capture settings; none when it is refused INVALID (R146, R201). -/
def CapSettings.write (c : CapSettings) (w : Nat) (v : Word) : Option CapSettings :=
  match w with
  | 0 => if v.toNat ≤ 511 then some { c with preCount := v.toNat } else none
  | 1 => if 1 ≤ v.toNat ∧ v.toNat ≤ 511 then some { c with postCount := v.toNat } else none
  | 2 => some { c with kindSet := field v 0 7, markedOnly := v.getLsbD 8 }
  | 3 => some { c with classMask := field v 0 17 }
  | _ => some { c with trigAnswers := field v 0 3, trigOver := field v 8 8, trigUnder := field v 16 8 }

/-- A record kind's code in word 0 (R202). -/
def RecKind.code : RecKind → Nat
  | .held => 1
  | .admitted _ _ => 2
  | .completed _ _ => 3
  | .expired _ => 4
  | .bounced => 5
  | .denied => 6
  | .late => 7
  | .mark _ => 8

/-- Where an expired request stood, as a code (R202). -/
def ExpiredAt.code : ExpiredAt → Nat
  | .intake => 1
  | .held => 2
  | .queued => 3
  | .issued => 4

/-- A trigger source's code, word 6 of a MARK (R202). -/
def TrigSource.code : TrigSource → Nat
  | .command => 1
  | .expired => 2
  | .fault => 3
  | .bounce => 4
  | .monOver _ => 5
  | .monUnder _ => 6

/-- The gauge index of a trigger source, word 7 of a MARK; 0 for a source that has none (R202). -/
def TrigSource.gauge : TrigSource → Nat
  | .monOver g => g.val
  | .monUnder g => g.val
  | .command => 0
  | .expired => 0
  | .fault => 0
  | .bounce => 0

/-- Word 6 of a record, its first detail word (R202). -/
def RecKind.detail6 : RecKind → Word
  | .held => 0
  | .admitted credit _ => BitVec.ofInt 32 credit
  | .completed latency _ => latency
  | .expired stood => BitVec.ofNat 32 stood.code
  | .bounced => 0
  | .denied => 0
  | .late => 0
  | .mark src => BitVec.ofNat 32 src.code

/-- Word 7 of a record, its second detail word (R202). -/
def RecKind.detail7 : RecKind → Word
  | .held => 0
  | .admitted _ borrowed => put 0 1 (b2n borrowed)
  | .completed _ fault => put 0 1 (b2n fault)
  | .expired _ => 0
  | .bounced => 0
  | .denied => 0
  | .late => 0
  | .mark src => BitVec.ofNat 32 src.gauge

/-- Word `w`, 0..7, of a record (R202). -/
def Rec.word (r : Rec) (w : Fin 8) : Word :=
  match w.val with
  | 0 => put 0 4 r.kind.code ||| put 4 5 (classCode r.body.cls) ||| put 12 1 (kindCode r.body.kind) |||
      put 13 1 (b2n r.body.mark)
  | 1 => r.stamp
  | 2 => put 0 8 r.body.source.toNat ||| put 8 8 r.body.tag.toNat ||| put 16 9 r.body.len
  | 3 => BitVec.ofNat 32 r.body.addr.toNat
  | 4 => put 0 8 (r.body.addr.toNat / 2 ^ 32)
  | 5 => put 0 16 r.body.epoch.toNat
  | 6 => r.kind.detail6
  | _ => r.kind.detail7

/-- The EMPTY word of the data port (R157). -/
def emptyWord : Word := 0xFFFFFFFF#32

end Sys2Proof.Machine
end

