-- ==== Sys2Proof/Machine/Ops.lean ====
section
/-! DEFINITION. The shared operations of the blocks: classification, capture, tallies and gauges, the table, admission, placement, expiry, the waits. -/

namespace Sys2Proof.Machine

/-! ### Vectors -/

/-- `v` with `f` applied to its item `i`. -/
def updAt {α : Type} {n : Nat} (v : Vector α n) (i : Fin n) (f : α → α) : Vector α n :=
  v.set i (f v[i]) i.isLt

/-- `v` with `f` applied to every item, with its index. -/
def mapAll {α β : Type} {n : Nat} (f : Fin n → α → β) (v : Vector α n) : Vector β n :=
  Vector.ofFn (fun i => f i v[i])

/-! ### Time and age (R26, R183, R184) -/

/-- Microseconds from `since` to now, modulo 2^32 (R184). -/
def State.elapsed (s : State) (since : Stamp) : Nat := (s.control.time - since).toNat

/-- The request's age has reached the age limit, and the limit is nonzero (R26). -/
def State.aged (s : State) (r : Req) : Bool :=
  decide (s.table.ageLimit ≠ 0 ∧ s.table.ageLimit ≤ s.elapsed r.stamp)

/-! ### Outputs -/

/-- An answer leaves at the U-port (R13). -/
def emit (source tag : Byte) (status : AnswerStatus) (data : List Byte) (s : State) : State :=
  { s with answers := s.answers ++ [{ source := source, tag := tag, status := status, data := data }] }

/-! ### Class records -/

/-- The record of class `c`. -/
def State.cls (s : State) (c : ClassId) : ClassRec := s.admission.classes[c]

/-- A change of class `c`'s record. -/
def updCls (c : ClassId) (f : ClassRec → ClassRec) (s : State) : State :=
  { s with admission := { s.admission with classes := updAt s.admission.classes c f } }

/-- A change of every class's record. -/
def updAllCls (f : ClassId → ClassRec → ClassRec) (s : State) : State :=
  { s with admission := { s.admission with classes := mapAll f s.admission.classes } }

/-- A notice to the intake: one more re-try event to come (R94). -/
def notice (s : State) : State :=
  { s with admission := { s.admission with retryNotices := s.admission.retryNotices + 1 } }

/-- A start of release evaluation; a start while one runs adds nothing (R87). -/
def startEval (s : State) : State :=
  { s with admission := { s.admission with evalRunning := true } }

/-- Requests held over all classes (R81). -/
def State.heldTotal (s : State) : Nat := (s.admission.classes.toList.map (fun c => c.queue.length)).sum

/-- The free slot count (R81). -/
def State.freeSlots (s : State) : Nat := Config.holdSlots - s.heldTotal

/-- The entry-wait set has class `c` (R86). -/
def State.inEntryWait (s : State) (c : ClassId) : Bool := (s.cls c).reason == .entry

/-- The entry-wait set is empty (R86). -/
def State.entryWaitEmpty (s : State) : Bool :=
  s.admission.classes.toList.all (fun c => c.reason != .entry)

/-! ### Classification (R42 to R45) -/

/-- The page of the first byte (R43). -/
def pageOf (a : Addr) : BitVec 28 := a.extractLsb' 12 28

/-- The request matches the rule (R42, R43, R44, R45). -/
def Rule.matches (k : Rule) (r : UReq) : Bool :=
  k.valid && (r.source &&& k.srcMask == k.srcValue &&& k.srcMask) &&
    decide (k.basePage ≤ pageOf r.addr) && decide (pageOf r.addr ≤ k.limitPage) &&
    (match r.kind with | .read => k.kindRead | .write => k.kindWrite) &&
    (!k.lenPresent || (decide (k.lenMin1.toNat + 1 ≤ r.len.val) && decide (r.len.val ≤ k.lenMax1.toNat + 1)))

/-- The result and mark a bank gives: the first matching rule's, or the default result with the mark clear
(R45). -/
def Bank.classify (b : Bank) (r : UReq) : Result × Bool :=
  match b.rules.toList.find? (fun k => k.matches r) with
  | some k => (k.result, k.mark)
  | none => (b.dflt, false)

/-- The request as the part holds it, stamped and classified (R6, R7). -/
def stampReq (u : UReq) (t : Traffic) (mark : Bool) (s : State) : Req :=
  { source := u.source, tag := u.tag, kind := u.kind, addr := u.addr, len := u.len, data := u.data,
    stamp := s.control.time, traffic := t, mark := mark, epoch := s.classifier.epoch }

/-! ### Capture (R147 to R153) -/

/-- The class of a traffic, NONE for PASS (R143). -/
def Traffic.cls? : Traffic → Option ClassId
  | .cls c => some c
  | .pass => none

/-- The fields of a record from a request (R143). -/
def Req.body (r : Req) : RecBody :=
  { cls := r.traffic.cls?, source := r.source, tag := r.tag, kind := r.kind, addr := r.addr,
    len := r.len.val, epoch := r.epoch, mark := r.mark }

/-- The fields of a MARK of a command or a monitor: all 0, the class NONE (R145). -/
def RecBody.zero : RecBody :=
  { cls := none, source := 0, tag := 0, kind := .read, addr := 0, len := 0, epoch := 0, mark := false }

/-- The bit of a record's kind in the kind set; a MARK has none (R201). -/
def RecKind.setBit : RecKind → Nat
  | .held => 0
  | .admitted _ _ => 1
  | .completed _ _ => 2
  | .expired _ => 3
  | .bounced => 4
  | .denied => 5
  | .late => 6
  | .mark _ => 7

/-- The three tests of the filter (R147). -/
def CapSettings.eligible (c : CapSettings) (r : Rec) : Bool :=
  c.kindSet.getLsbD r.kind.setBit && c.classMask.getLsbD (classCode r.body.cls) &&
    (!c.markedOnly || r.body.mark)

/-- The source is in the trigger selection; COMMAND always is (R151). -/
def CapSettings.selects (c : CapSettings) : TrigSource → Bool
  | .command => true
  | .expired => c.trigAnswers.getLsbD 0
  | .fault => c.trigAnswers.getLsbD 1
  | .bounce => c.trigAnswers.getLsbD 2
  | .monOver g => c.trigOver.getLsbD g.val
  | .monUnder g => c.trigUnder.getLsbD g.val

/-- An eligible record in ARMED joins the pre-trigger ring; with the ring full, or K of 0, one record is
dropped and counted (R150). -/
def Capture.ringAdd (c : Capture) (r : Rec) : Capture :=
  if c.settings.preCount = 0 then { c with dropped := min (c.dropped + 1) 4294967295 }
  else if c.settings.preCount ≤ c.buffer.length then
    { c with buffer := c.buffer.drop 1 ++ [r], dropped := min (c.dropped + 1) 4294967295 }
  else { c with buffer := c.buffer ++ [r], preHeld := c.preHeld + 1 }

/-- An eligible record in TRIGGERED joins the tail; the N-th takes the state to DONE (R153). -/
def Capture.postAdd (c : Capture) (r : Rec) : Capture :=
  { c with buffer := c.buffer ++ [r], postAppended := c.postAppended + 1,
           state := if c.settings.postCount ≤ c.postAppended + 1 then .done else c.state }

/-- An offered record (R147, R150, R153): kept in ARMED or TRIGGERED when it is eligible, and nowhere
counted otherwise. -/
def Capture.offer (c : Capture) (r : Rec) : Capture :=
  match c.state with
  | .armed => if c.settings.eligible r then c.ringAdd r else c
  | .triggered => if c.settings.eligible r then c.postAdd r else c
  | .idle => c
  | .done => c

/-- An offered record; CAPTURE_DONE is raised when it is the N-th post record (R153). -/
def offerRecord (kind : RecKind) (body : RecBody) (s : State) : State :=
  let c := s.capture.offer { kind := kind, stamp := s.control.time, body := body }
  raiseIf (s.capture.state == .triggered && c.state == .done) .captureDone { s with capture := c }

/-- A trigger source is taken: selected, and offered in ARMED (R152). -/
def Capture.takes (c : Capture) (src : TrigSource) : Bool := c.state == .armed && c.settings.selects src

/-- The MARK record joins the tail and the state becomes TRIGGERED (R145, R152). -/
def Capture.markAt (c : Capture) (r : Rec) : Capture :=
  { c with buffer := c.buffer ++ [r], state := .triggered, postAppended := 0 }

/-- The capture unit after an offered trigger source (R151, R152). -/
def Capture.trigger (c : Capture) (src : TrigSource) (now : Stamp) (body : RecBody) : Capture :=
  if c.takes src then c.markAt { kind := .mark src, stamp := now, body := body } else c

/-- An offered trigger source; CAPTURE_TRIGGERED is raised when it is taken (R152). -/
def offerTrigger (src : TrigSource) (body : RecBody) (s : State) : State :=
  raiseIf (s.capture.takes src) .captureTriggered
    { s with capture := s.capture.trigger src s.control.time body }

/-! ### Tallies and gauges (R112 to R120) -/

/-- A change of class `c`'s tallies. -/
def tally (c : ClassId) (f : Tallies → Tallies) (s : State) : State :=
  { s with gauge := { s.gauge with tallies := updAt s.gauge.tallies c f } }

/-- A change of a class's tallies for a class request; a PASS request has none (R113). -/
def tallyOf (t : Traffic) (f : Tallies → Tallies) (s : State) : State :=
  match t with
  | .cls c => tally c f s
  | .pass => s

/-- A change of the gauge block's global tallies. -/
def updGauge (f : GaugeBlock → GaugeBlock) (s : State) : State := { s with gauge := f s.gauge }

/-- The input counts this traffic (R119). -/
def Input.takes (i : Input) (t : Traffic) : Bool :=
  match i, t with
  | .cls c, .cls d => c == d
  | .cls _, .pass => false
  | .pass, .pass => true
  | .pass, .cls _ => false
  | .all, _ => true
  | .none, _ => false

/-- A period count stops at 2^32 - 1 (R119). -/
def satAdd32 (n k : Nat) : Nat := min (n + k) 4294967295

/-- A gauge, when enabled, adds `n` for each input that takes the traffic (R119, R120). -/
def Gauge.count (g : Gauge) (t : Traffic) (n : Nat) : Gauge :=
  if g.settings.enable then
    { g with a := if g.settings.inA.takes t then satAdd32 g.a n else g.a,
             b := if g.settings.inB.takes t then satAdd32 g.b n else g.b }
  else g

/-- What an admission of a request counts under a quantity (R119). -/
def Quantity.ofAdmission (q : Quantity) (kind : ReqKind) (len : Nat) : Nat :=
  match q, kind with
  | .readBytes, .read => len
  | .readBytes, .write => 0
  | .writeBytes, .read => 0
  | .writeBytes, .write => len
  | .allBytes, _ => len
  | .admissions, _ => 1
  | .bounces, _ => 0
  | .heldLevel, _ => 0

/-- What a BOUNCE at placement counts under a quantity (R119). -/
def Quantity.ofBounce : Quantity → Nat
  | .bounces => 1
  | .readBytes => 0
  | .writeBytes => 0
  | .allBytes => 0
  | .admissions => 0
  | .heldLevel => 0

/-- Every gauge is offered an admission (R115, R120). -/
def gaugeAdmission (t : Traffic) (kind : ReqKind) (len : Nat) (s : State) : State :=
  updGauge (fun b => { b with gauges := mapAll (fun _ g => g.count t (g.settings.quantity.ofAdmission kind len)) b.gauges }) s

/-- Every gauge is offered a BOUNCE answer given at placement (R115, R120). -/
def gaugeBounce (t : Traffic) (s : State) : State :=
  updGauge (fun b => { b with gauges := mapAll (fun _ g => g.count t g.settings.quantity.ofBounce) b.gauges }) s

/-! ### The table (R18 to R21) -/

/-- The entry is FREE. -/
def Entry.isFree : Entry → Bool
  | .free => true
  | .queued _ _ => false
  | .issued _ _ => false
  | .abandoned _ _ => false

/-- The entry is QUEUED. -/
def Entry.isQueued : Entry → Bool
  | .queued _ _ => true
  | .free => false
  | .issued _ _ => false
  | .abandoned _ _ => false

/-- The entry is ISSUED. -/
def Entry.isIssued : Entry → Bool
  | .issued _ _ => true
  | .free => false
  | .queued _ _ => false
  | .abandoned _ _ => false

/-- The entry is ABANDONED. -/
def Entry.isAbandoned : Entry → Bool
  | .abandoned _ _ => true
  | .free => false
  | .queued _ _ => false
  | .issued _ _ => false

/-- The free entry count (R19). -/
def State.freeEntries (s : State) : Nat := s.table.entries.toList.countP Entry.isFree

/-- The FREE entry with the lowest index (R21). -/
def State.lowestFree (s : State) : Option EntryId :=
  (List.finRange 64).find? (fun i => s.table.entries[i].isFree)

/-- An entry's new contents. -/
def setEntry (i : EntryId) (e : Entry) (s : State) : State :=
  { s with table := { s.table with entries := s.table.entries.set i e i.isLt } }

/-- The index leaves the issue queue from wherever it stands (R20). -/
def leaveIssueQ (i : EntryId) (s : State) : State :=
  { s with table := { s.table with issueQ := s.table.issueQ.filter (fun j => j != i) } }

/-- A change of a class's outstanding count for a class request (R19, R62). -/
def updOutstanding (t : Traffic) (f : Nat → Nat) (s : State) : State :=
  match t with
  | .cls c => updCls c (fun k => { k with outstanding := f k.outstanding }) s
  | .pass => s

/-- Admission into the lowest FREE entry: QUEUED, at the tail of the issue queue, one more outstanding for
a class request (R21). Every caller has found an entry FREE; with none free nothing is taken
(notes/assumptions/23.md). -/
def enterTable (r : Req) (borrowed : Bool) (s : State) : State :=
  match s.lowestFree with
  | some i =>
    updOutstanding r.traffic (fun n => n + 1)
      (setEntry i (.queued r borrowed)
        { s with table := { s.table with issueQ := s.table.issueQ ++ [i] } })
  | none => s

/-- The table's notice that an entry has come free: to the admission unit, which starts release evaluation,
and to the intake (R28, R31, R33, R36). -/
def entryFreed (s : State) : State := notice (startEval s)

/-- A fall of a class's outstanding count: it starts release evaluation and gives the intake a notice
(R62, R87, R94). A PASS entry is reported to no class (R19). -/
def outstandingFall (t : Traffic) (s : State) : State :=
  match t with
  | .cls _ => notice (startEval (updOutstanding t (fun n => n - 1) s))
  | .pass => s

/-! ### Admission conditions and head block reasons (R67, R68, R84, R85) -/

/-- What keeps a request of length `len` of class `c` from admission: the first of the tests of R84 that
fails, or none when the admission conditions of R67 or R68 hold. -/
def State.blockReason (s : State) (c : ClassId) (len : Nat) : Reason :=
  let k := s.cls c
  let roomless : Reason := if s.table.passReserve < s.freeEntries then .none else .entry
  match k.active.mode with
  | .openMode => roomless
  | .regulated =>
    if k.credit < 1 ∧ k.active.borrow = false then .credit
    else if k.credit < 1 ∧ s.admission.poolLevel < len then .pool
    else if k.active.limit.toNat ≤ k.outstanding then .limit
    else roomless

/-- The reason of class `c`'s head against the state as it stands (R84). -/
def State.headReason (s : State) (c : ClassId) : Reason :=
  match (s.cls c).queue with
  | [] => .none
  | r :: _ => s.blockReason c r.len.val

/-- The head block reason of class `c` is set (R85). -/
def setReason (c : ClassId) (s : State) : State :=
  updCls c (fun k => { k with reason := s.headReason c }) s

/-- The head block reason of every class with a non-empty queue is set (R85). -/
def setReasons (s : State) : State :=
  updAllCls (fun c k => if k.queue.isEmpty then k else { k with reason := s.headReason c }) s

/-- Class `c` has a head and the head is eligible (R84, R88). -/
def State.eligible (s : State) (c : ClassId) : Bool :=
  !(s.cls c).queue.isEmpty && s.headReason c == .none

/-! ### Class admission (R69) -/

/-- How an admission is paid (R67, R68, R69). -/
inductive Payment where
  | free
  | credit
  | pool
deriving DecidableEq, Repr

/-- An OPEN class pays nothing; a REGULATED one pays on credit while its credit is at least 1, and
otherwise on the pool (R67). -/
def State.payment (s : State) (c : ClassId) : Payment :=
  match (s.cls c).active.mode with
  | .openMode => .free
  | .regulated => if (s.cls c).credit < 1 then .pool else .credit

/-- Step 2 of R69. -/
def charge (c : ClassId) (p : Payment) (len : Nat) (s : State) : State :=
  match p with
  | .free => s
  | .credit => updCls c (fun k => { k with credit := k.credit - len }) s
  | .pool => { s with admission := { s.admission with poolLevel := s.admission.poolLevel - len } }

/-- The tallies of an admission, step 3 of R69. -/
def Tallies.onAdmission (kind : ReqKind) (len : Nat) (borrowed : Bool) (t : Tallies) : Tallies :=
  { t with admitted := t.admitted + 1,
           readBytes := match kind with | .read => t.readBytes + BitVec.ofNat 32 len | .write => t.readBytes,
           writeBytes := match kind with | .write => t.writeBytes + BitVec.ofNat 32 len | .read => t.writeBytes,
           borrowedBytes := if borrowed then t.borrowedBytes + BitVec.ofNat 32 len else t.borrowedBytes }

/-- Step 4 of R69: an admission adds to the race bytes of an enabled race, and one that reaches the active
bytes is a byte event: the counters restart and a QUIET class becomes ACTIVE (R100, R101). -/
def ClassRec.addRace (k : ClassRec) (len : Nat) : ClassRec :=
  if k.active.raceEnable then
    if k.active.activeBytes.toNat ≤ k.raceBytes + len then
      { k with quiet := .active, raceTime := 0, raceBytes := 0 }
    else { k with raceBytes := k.raceBytes + len }
  else k

/-- Step 4 of R69, with the raise of WAKE (R101). -/
def raceAdmission (c : ClassId) (len : Nat) (s : State) : State :=
  raiseIf ((s.cls c).quiet == .quiet && ((s.cls c).addRace len).quiet == .active) .wake
    (updCls c (fun k => k.addRace len) s)

/-- A class admission (R69): table, charge, tallies and gauges, race, capture record with the credit after
the charge. -/
def admitClass (c : ClassId) (r : Req) (s : State) : State :=
  let p := s.payment c
  let borrowed := p == .pool
  let s1 := charge c p r.len.val (enterTable r borrowed s)
  let s2 := gaugeAdmission r.traffic r.kind r.len.val (tally c (Tallies.onAdmission r.kind r.len.val borrowed) s1)
  offerRecord (.admitted (s1.cls c).credit borrowed) r.body (raceAdmission c r.len.val s2)

/-- A PASS admission (R22). -/
def admitPass (r : Req) (s : State) : State :=
  offerRecord (.admitted 0 false) r.body
    (gaugeAdmission .pass r.kind r.len.val
      (updGauge (fun b => { b with passAdmitted := b.passAdmitted + 1 }) (enterTable r false s)))

/-! ### Placement at intake (R71 to R75) -/

/-- The intake register. -/
def setIntake (i : IntakeReg) (s : State) : State := { s with intake := i }

/-- The request waits in the intake register and STALLED is raised (R9). -/
def waitIntake (r : Req) (why : WaitReason) (s : State) : State :=
  raise .stalled (setIntake (.waiting r why) s)

/-- Step 1 of R71: admitted directly. A direct borrowed admission is a fall of the pool level outside
release, which sets the reasons of the held heads (R85). -/
def admitDirect (c : ClassId) (r : Req) (s : State) : State :=
  let s1 := setIntake .empty (admitClass c r s)
  match s.payment c with
  | .pool => setReasons s1
  | .credit => s1
  | .free => s1

/-- Step 2 of R71: held at the tail of its class's queue (R73). A request that becomes the head of an
empty queue has its reason set and starts release evaluation (R85, R87). -/
def holdReq (c : ClassId) (r : Req) (s : State) : State :=
  let s1 := setIntake .empty (updCls c (fun k => { k with queue := k.queue ++ [r] }) s)
  let s2 := if (s.cls c).queue.isEmpty then startEval (setReason c s1) else s1
  offerRecord .held r.body (tally c (fun t => { t with held := t.held + 1 }) s2)

/-- Step 3 of R71 under BOUNCE (R8, R74): the record is offered before the trigger source (R151). -/
def bounceReq (c : ClassId) (r : Req) (s : State) : State :=
  let s1 := raise .bounced (emit r.source r.tag .bounce [] (setIntake .empty s))
  let s2 := gaugeBounce r.traffic (tally c (fun t => { t with bounced := t.bounced + 1 }) s1)
  offerTrigger .bounce r.body (offerRecord .bounced r.body s2)

/-- The request may be admitted directly (step 1 of R71, R72). -/
def State.directOk (s : State) (c : ClassId) (r : Req) : Bool :=
  (s.cls c).queue.isEmpty && s.entryWaitEmpty && s.blockReason c r.len.val == .none

/-- The request finds hold room (step 2 of R71, R73). -/
def State.holdRoom (s : State) (c : ClassId) : Bool :=
  decide (0 < s.freeSlots ∧ (s.cls c).queue.length < (s.cls c).active.quota.toNat)

/-- Placement of a class request (R71). -/
def placeClass (c : ClassId) (r : Req) (s : State) : State :=
  if s.directOk c r then admitDirect c r s
  else if s.holdRoom c then holdReq c r s
  else
    match (s.cls c).active.policy with
    | .bounce => bounceReq c r s
    | .stall => waitIntake r .slot s

/-- Placement of a PASS request (R22, R75). -/
def placePass (r : Req) (s : State) : State :=
  if 1 ≤ s.freeEntries then setIntake .empty (admitPass r s) else waitIntake r .entry s

/-- Placement of a classified request (R8). -/
def placeReq (r : Req) (s : State) : State :=
  match r.traffic with
  | .cls c => placeClass c r s
  | .pass => placePass r s

/-- A request whose result is DENY (R8): answered, tallied, flagged, offered as a DENIED record with class
NONE. -/
def denyReq (u : UReq) (mark : Bool) (s : State) : State :=
  let body : RecBody :=
    { cls := none, source := u.source, tag := u.tag, kind := u.kind, addr := u.addr, len := u.len.val,
      epoch := s.classifier.epoch, mark := mark }
  offerRecord .denied body
    (raise .denied (updGauge (fun b => { b with denied := b.denied + 1 })
      (emit u.source u.tag .denied [] s)))

/-! ### Expiry (R11, R30, R33, R92) -/

/-- What every EXPIRED answer does: the answer, the flag, the class's expired tally, the EXPIRED record and
then the EXPIRED trigger source. -/
def expireReq (r : Req) (stood : ExpiredAt) (s : State) : State :=
  let s1 := raise .expired (emit r.source r.tag .expired [] s)
  let s2 := tallyOf r.traffic (fun t => { t with expired := t.expired + 1 }) s1
  offerTrigger .expired r.body (offerRecord (.expired stood) r.body s2)

/-- The expiry of the waiting request (R11). -/
def expireIntake (s : State) : State :=
  match s.intake with
  | .waiting r _ => expireReq r .intake (setIntake .empty s)
  | .empty => s

/-- The expiry of the request at place `k` of class `c`'s queue (R92). -/
def expireHeld (c : ClassId) (k : Nat) (s : State) : State :=
  match (s.cls c).queue[k]? with
  | some r =>
    let s1 := notice (expireReq r .held (updCls c (fun q => { q with queue := q.queue.eraseIdx k }) s))
    if k = 0 then startEval (setReason c s1) else s1
  | none => s

/-- The expiry of an entry: a QUEUED one is freed (R33), an ISSUED one is abandoned (R30), any other finds
nothing (R28, R29). -/
def expireEntry (i : EntryId) (s : State) : State :=
  match s.table.entries[i] with
  | .queued r _ =>
    entryFreed (outstandingFall r.traffic
      (expireReq r .queued (setEntry i .free (leaveIssueQ i s))))
  | .issued r b =>
    outstandingFall r.traffic
      (expireReq r .issued (raise .abandoned (setEntry i (.abandoned r b) s)))
  | .abandoned _ _ => s
  | .free => s

/-! ### Regulation at a boundary (R52, R55, R66, R77, R105) -/

/-- The validation of one rule (R52). -/
def Rule.check (k : Rule) : Option RuleCause :=
  if k.valid then
    if k.limitPage < k.basePage then some .baseAboveLimit
    else if k.lenPresent ∧ k.lenMax1 < k.lenMin1 then some .minAboveMax
    else none
  else none

/-- The validation of one class's settings, in the order of R52's table. -/
def ClassSettings.check (c : ClassSettings) : Option ClassCause :=
  if c.limit.toNat < 1 ∨ 64 < c.limit.toNat then some .limitRange
  else if 128 < c.quota.toNat then some .quotaRange
  else if c.raceEnable ∧ (c.quietTime = 0 ∨ c.activeBytes = 0) then some .raceZero
  else none

/-- The validation of the shadow set: valid rules in position order, then classes in class order; the
first failure ends it (R52). -/
def State.validate (s : State) : CommitFault :=
  match (List.finRange 48).findSome? (fun i => (s.classifier.shadow.rules[i].check).map (fun e => (i, e))) with
  | some (i, e) => .rule i e
  | none =>
    match (List.finRange 16).findSome? (fun c => ((s.cls c).shadow.check).map (fun e => (c, e))) with
    | some (c, e) => .cls c e
    | none => .none

/-- The effect of a commit on one class (R77, R103). -/
def ClassRec.applyCommit (k : ClassRec) : ClassRec :=
  { k with active := k.shadow, credit := min k.credit (k.shadow.cap.toNat : Int),
           quiet := if k.shadow.raceEnable then k.quiet else .active, raceTime := 0, raceBytes := 0 }

/-- Steps 1 to 3 and 5 of R55: the banks, the epoch, the class settings and their effects, COMMIT_DONE,
commit state IDLE. Step 4, the refill, reads neither the flag nor the commit state, and step 6 follows it. -/
def applyCommit (s : State) : State :=
  let s1 := { s with classifier := { s.classifier with
    active := s.classifier.shadow, epoch := s.classifier.epoch + 1, commitPending := false } }
  raise .commitDone (updAllCls (fun _ k => k.applyCommit) s1)

/-- The class lends its refill at this boundary (R66, R105). -/
def ClassRec.lends (k : ClassRec) : Bool := k.quiet == .quiet && k.active.lend

/-- The refill of one class (R66). -/
def ClassRec.refill (k : ClassRec) : ClassRec :=
  if k.lends then k
  else { k with credit := min (k.active.cap.toNat : Int) (k.credit + k.active.refillRate.toNat) }

/-- The bytes lent at a boundary (R105). -/
def State.lent (s : State) : Nat :=
  (s.admission.classes.toList.map (fun k => if k.lends then k.active.refillRate.toNat else 0)).sum

/-- The refill of every class and the lending into the pool (R66, R105). A rise of the pool level gives the
intake a notice of its own (R94). -/
def refillAll (s : State) : State :=
  let level := min s.admission.poolCap (s.admission.poolLevel + s.lent)
  let s1 := updAllCls (fun _ k => k.refill) s
  let s2 := { s1 with admission := { s1.admission with poolLevel := level } }
  if s.admission.poolLevel < level then notice s2 else s2

/-- A refill boundary (R55, R65): the schedule goes on, a pending commit is applied, every class is
refilled, the intake is told and release evaluation starts. -/
def boundary (s : State) : State :=
  let s1 := { s with admission := { s.admission with
    refillStart := s.admission.refillStart + BitVec.ofNat 32 s.admission.refillPeriod } }
  let s2 := if s.classifier.commitPending then applyCommit s1 else s1
  startEval (notice (refillAll s2))

/-! ### Release (R88 to R90) -/

/-- The classes in the order in which the arbiter searches a level whose pointer is `p` (R89). -/
def searchOrder (p : ClassId) : List ClassId :=
  (List.finRange 16).map (fun i => p + 1 + i)

/-- The class the arbiter chooses among the eligible heads: the lowest priority number first, and within a
level the first after the class last served (R89). -/
def State.arbiter (s : State) : Option ClassId :=
  (List.finRange 4).findSome? (fun lvl =>
    (searchOrder s.admission.pointers[lvl]).find? (fun c =>
      s.eligible c && (s.cls c).active.priority == lvl))

/-- The pointer of a level is set (R89). -/
def setPointer (lvl : Fin 4) (c : ClassId) (s : State) : State :=
  { s with admission := { s.admission with pointers := s.admission.pointers.set lvl c lvl.isLt } }

/-- The release of class `c`'s head (R90): admission, then the queue, the new head's reason, the notice and
the pointer. -/
def release (c : ClassId) (s : State) : State :=
  match (s.cls c).queue with
  | r :: rest =>
    let s1 := updCls c (fun k => { k with queue := rest }) (admitClass c r s)
    setPointer (s.cls c).active.priority c (notice (setReason c s1))
  | [] => s

/-- The end of a release evaluation (R88). -/
def endEval (s : State) : State :=
  let s1 := setReasons s
  { s1 with admission := { s1.admission with evalRunning := false } }

/-! ### Gauges at a period end, and monitors (R121, R122, R130 to R137) -/

/-- The hold level of an input (R119). -/
def State.holdLevel (s : State) : Input → Nat
  | .cls c => (s.cls c).queue.length
  | .pass => s.heldTotal
  | .all => s.heldTotal
  | .none => 0

/-- The value x of a sample from the counts (R121). -/
def Combine.value (m : Combine) (a b : Nat) : Int :=
  match m with
  | .a => a
  | .b => b
  | .aPlusB => a + b
  | .aMinusB => (a : Int) - b

/-- The sample value v from x (R121). -/
def SignMode.value (m : SignMode) (x : Int) : Int :=
  match m with
  | .positive => if 0 < x then x else 0
  | .negative => if x < 0 then -x else 0
  | .signed => x
  | .magnitude => if 0 ≤ x then x else -x

/-- The sample of a gauge at its period end (R121). -/
def State.sample (s : State) (g : Gauge) : Int :=
  let a := if g.settings.quantity == .heldLevel then s.holdLevel g.settings.inA else g.a
  let b := if g.settings.quantity == .heldLevel then s.holdLevel g.settings.inB else g.b
  g.settings.sign.value (g.settings.combine.value a b)

/-- The accumulator wraps when the exact sum lies outside -2^47 .. 2^47 - 1 (R122). -/
def accWraps (acc : BitVec 48) (v : Int) : Bool :=
  decide (acc.toInt + v < -(2 ^ 47) ∨ 2 ^ 47 ≤ acc.toInt + v)

/-- The gauge after its period end: the sample added, the counts at 0, the next period started (R120, R121,
R122). -/
def Gauge.periodEnd (g : Gauge) (v : Int) (now : Stamp) : Gauge :=
  { g with acc := g.acc + BitVec.ofInt 48 v, wrapped := g.wrapped || accWraps g.acc v, a := 0, b := 0,
           start := now }

/-- The verdict of a window (R131). -/
def verdictOf (m : MonSettings) (high low : Nat) : Verdict :=
  if m.nh.toNat < high then .high else if m.nl.toNat < low then .low else .normal

/-- A run stops at 255 (R132). -/
def runUp (n : Nat) : Nat := min (n + 1) 255

/-- The high run after a verdict (R132). -/
def highRunAfter (n : Nat) : Verdict → Nat
  | .high => runUp n
  | .low => 0
  | .normal => 0
  | .none => n

/-- The low run after a verdict (R132). -/
def lowRunAfter (n : Nat) : Verdict → Nat
  | .low => runUp n
  | .high => 0
  | .normal => 0
  | .none => n

/-- The clear run after a verdict, before any change of state (R132). -/
def clearRunAfter (n : Nat) (st : MonState) (v : Verdict) : Nat :=
  match st, v with
  | .normal, _ => 0
  | .over, .high => 0
  | .over, .low => runUp n
  | .over, .normal => runUp n
  | .over, .none => n
  | .under, .low => 0
  | .under, .high => runUp n
  | .under, .normal => runUp n
  | .under, .none => n

/-- The state after a verdict, from the runs already updated (R133, R134, R135). -/
def stateAfter (m : MonSettings) (st : MonState) (highRun lowRun clearRun : Nat) : MonState :=
  match st with
  | .normal =>
    if m.mh.toNat ≤ highRun then .over else if m.ml.toNat ≤ lowRun then .under else .normal
  | .over =>
    if m.ml.toNat ≤ lowRun then .under else if m.mc.toNat ≤ clearRun then .normal else .over
  | .under =>
    if m.mh.toNat ≤ highRun then .over else if m.mc.toNat ≤ clearRun then .normal else .under

/-- A duration counter stops at 2^24 - 1 (R137). -/
def durationUp (n : Nat) : Nat := min (n + 1) 16777215

/-- The end of a window whose counts are `high` and `low` (R131): verdict, runs, state, durations, and the
window back at 0. -/
def Monitor.windowEnd (m : Monitor) (high low : Nat) : Monitor :=
  let v := verdictOf m.settings high low
  let hr := highRunAfter m.live.highRun v
  let lr := lowRunAfter m.live.lowRun v
  let cr := clearRunAfter m.live.clearRun m.live.state v
  let st := stateAfter m.settings m.live.state hr lr cr
  { m with
    live := { state := st, pos := 0, high := 0, low := 0, verdict := v, highRun := hr, lowRun := lr,
              clearRun := if st = m.live.state then cr else 0 },
    overWindows := if st = .over then durationUp m.overWindows else m.overWindows,
    underWindows := if st = .under then durationUp m.underWindows else m.underWindows }

/-- An enabled monitor takes a sample (R130); a disabled one does not (R138). -/
def Monitor.sample (m : Monitor) (v : Int) : Monitor :=
  if m.settings.enable then
    let high := if m.settings.upper.toInt < v then m.live.high + 1 else m.live.high
    let low := if v < m.settings.lower.toInt then m.live.low + 1 else m.live.low
    if m.settings.window.toNat ≤ m.live.pos + 1 then m.windowEnd high low
    else { m with live := { m.live with pos := m.live.pos + 1, high := high, low := low } }
  else m

/-- The restart of a monitor: settings and durations are kept (R139). -/
def Monitor.restart (m : Monitor) : Monitor := { m with live := MonLive.start }

/-- The change of a monitor's state raises its flag and offers its trigger source on entry into OVER or
UNDER, and nothing on leaving for NORMAL (R136). -/
def monitorChanged (g : GaugeId) (before after : MonState) (s : State) : State :=
  if before = after then s
  else
    match after with
    | .over => offerTrigger (.monOver g) RecBody.zero (raise (.monOver g) s)
    | .under => offerTrigger (.monUnder g) RecBody.zero (raise (.monUnder g) s)
    | .normal => s

/-- The period end of gauge `g` (R121, R122, R130). -/
def periodEnd (g : GaugeId) (s : State) : State :=
  let k := s.gauge.gauges[g]
  let v := s.sample k
  let m := s.gauge.monitors[g]
  let m' := m.sample v
  let s1 := updGauge (fun b =>
    { b with gauges := b.gauges.set g (k.periodEnd v s.control.time) g.isLt,
             monitors := b.monitors.set g m' g.isLt }) s
  monitorChanged g m.live.state m'.live.state (raiseIf (accWraps k.acc v) .gaugeWrap s1)

/-! ### The running frame and its waits (R169, R177, R179) -/

/-- A change of the service link. -/
def updLink (f : Link → Link) (s : State) : State := { s with link := f s.link }

/-- A link counter stops at 65535 (R180). -/
def satUp16 (n : Nat) : Nat := min (n + 1) 65535

/-- The reply of a frame that was run is built, stored and kept, and the link goes to REPLY_READY (R169). -/
def buildReply (r : Reply) (s : State) : State :=
  updLink (fun l => { l with state := .replyReady false, wait := .none, stored := some r, kept := some r }) s

/-- The frame goes on: with no command left, and no wait under way, its reply is built with status OK
(R169). -/
def goOn (s : State) : State :=
  match s.link.state, s.link.wait with
  | .executing run, .none =>
    if run.body.isEmpty then
      buildReply { seq := run.seq, status := .ok, failIdx := 0, executed := run.nRun, data := run.data } s
    else s
  | .executing _, .await _ _ => s
  | .executing _, .delay _ _ => s
  | .idle, _ => s
  | .receiving _, _ => s
  | .replyReady _, _ => s

/-- The end of an AWAIT: the result item is written and the frame goes on (R177). -/
def endAwait (micros : Nat) (way : WaitWay) (s : State) : State :=
  goOn (updLink (fun l => { l with wait := .none, awaitTime := micros, awaitWay := way }) s)

/-- The end of an event that can raise flags: the raise of a masked flag ends a running AWAIT with the way
EVENT, within the event (R177). No masked flag was set when the wait began and none is cleared during it
(R178), so a masked flag that is set was raised by this event. -/
def settle (s : State) : State :=
  match s.link.wait with
  | .await m0 since =>
    if maskedFlagSet m0 s.link.awaitMask1 s then endAwait (s.elapsed since) .event s else s
  | .none => s
  | .delay _ _ => s

/-! ### Outputs as functions of the state -/

/-- What the M-port offers: the downstream request of the head of the issue queue (R2, R16). -/
def State.offer (s : State) : Option Downstream :=
  match s.table.issueQ with
  | [] => none
  | i :: _ =>
    match s.table.entries[i] with
    | .queued r _ =>
      some { tag := i, source := r.source, kind := r.kind, addr := r.addr, len := r.len, data := r.data }
    | .issued _ _ => none
    | .abandoned _ _ => none
    | .free => none

/-- RDY: high in REPLY_READY except during a fetch; in RECEIVING as in the state the frame arrived in
(R161, R164); low while RESET is held (R181). DESIGN CHOICE (notes/assumptions/24.md): a fetch opened in
EXECUTING that is still under way when the link reaches REPLY_READY does not hold RDY low. -/
def State.rdy (s : State) : Bool :=
  !s.control.resetHeld &&
    match s.link.state with
    | .idle => false
    | .receiving fromReady => fromReady
    | .executing _ => false
    | .replyReady fetching => !fetching

/-! ### Free values -/

/-- A free value is drawn: the next one differs (notes/assumptions/7.md, notes/assumptions/8.md). -/
def drawPick (s : State) : State := { s with freePicks := s.freePicks + 1 }

/-! ### The frame of a step -/

/-- The RESET input is not held, so the part takes the event; while it is held no block takes any
(R5, R161, R191). DESIGN CHOICE (notes/assumptions/3.md): the command is then used up. A TAKE given while RESET
is held leaves its request at the interconnect (R5), and the sender puts a new TAKE into the queue. -/
def live (f : State → State) (s : State) : Host.Outcome State Fault Refusal :=
  .next (if s.control.resetHeld then s else f s)

end Sys2Proof.Machine
end

