-- ==== Sys2Proof/Machine/ControlBlock.lean ====
section
/-! DEFINITION. The meanings of the time base tick, the power-on reset and its release. -/

namespace Sys2Proof.Machine

/-- One microsecond of an enabled race (R99). -/
def ClassRec.tick (k : ClassRec) : ClassRec :=
  if k.active.raceEnable then { k with raceTime := k.raceTime + 1 } else k

/-- The time base advances by one, wrapping at 2^32 (R182), and with it every running race time (R99). -/
def tick (s : State) : State :=
  updAllCls (fun _ k => k.tick) { s with control := { s.control with time := s.control.time + 1 } }

/-- TIME_BASE_TICK (R182). While RESET is held the count stands at 0. -/
def execTimeBaseTick (s : State) : Host.Outcome State Fault Refusal := live tick s

/-- The whole part at its power-on state with RESET held (R39, R58, R80, R98, R111, R160, R181, R191). What has
already left the part, and the commands that still wait, are not the part's to take back. SEL is an input line:
a SEL-low period under way goes on (notes/assumptions/18.md). -/
def powerOnReset (s : State) : State :=
  { State.reset with
      control := { Control.reset with resetHeld := true }, answers := s.answers, sentDown := s.sentDown,
      sdo := s.sdo, freePicks := s.freePicks, pending := s.pending,
      link := { Link.reset with sel := if s.link.sel = .high then .high else .low } }

/-- POWER_ON_RESET (R191). -/
def execPowerOnReset (s : State) : Host.Outcome State Fault Refusal := .next (powerOnReset s)

/-- RESET_RELEASE (R191): the time base begins counting from 0 and the refill schedule from the release
(R64); a SEL-low period under way is ignored to its end (R162). With RESET not held there is no release
(notes/assumptions/2.md). -/
def execResetRelease (s : State) : Host.Outcome State Fault Refusal :=
  .next (if s.control.resetHeld then
    { s with control := { s.control with resetHeld := false, time := 0 },
             admission := { s.admission with refillStart := 0 },
             link := { s.link with sel := if s.link.sel = .high then .high else .ignored } }
  else s)

end Sys2Proof.Machine
end

