-- ==== Sys2Proof/Machine/LinkFrames.lean ====
section
/-! DEFINITION. The meanings of the service link's transfers and frames, and of the ends of its waits. -/

namespace Sys2Proof.Machine

/-- A change of the six link counters. -/
def updCounters (f : LinkCounters → LinkCounters) (s : State) : State :=
  updLink (fun l => { l with counters := f l.counters }) s

/-- The link goes to a state. -/
def setLink (st : LinkState) (s : State) : State := updLink (fun l => { l with state := st }) s

/-- `n` bytes are clocked in a transfer that is no fetch of a reply: SDO drives 0x00 (R162). -/
def clockZeros (n : Nat) (s : State) : State := { s with sdo := s.sdo ++ List.replicate n 0 }

/-- The bytes of a transfer that a TRUNCATION cut short: their number is a free value
(notes/assumptions/8.md). -/
def clockTruncated (s : State) : State := drawPick (clockZeros (Config.truncatedBytes s.freePicks) s)

/-- SEL goes to a level. -/
def setSel (x : Sel) (s : State) : State := updLink (fun l => { l with sel := x }) s

/-- SEL falls and a transfer begins, with the effect `f` of its first byte. While RESET is held the link takes
nothing (R161), and in a SEL-low period that is ignored no transfer can begin (R162). -/
def transferBegins (f : State → State) (s : State) : Host.Outcome State Fault Refusal :=
  .next (if s.control.resetHeld then setSel .low s
    else match s.link.sel with
      | .ignored => s
      | .high => f (setSel .low s)
      | .low => f (setSel .low s))

/-- A transfer ends with the rise of SEL, with the effect `f`. The rise ends an ignored period, in which `z`
clocks the bytes: the next fall of SEL begins a transfer (R162). -/
def transferEnds (z f : State → State) (s : State) : Host.Outcome State Fault Refusal :=
  .next (if s.control.resetHeld then setSel .high s
    else match s.link.sel with
      | .ignored => setSel .high (z s)
      | .high => f (setSel .high s)
      | .low => f (setSel .high s))

/-- A frame opener while EXECUTING: ignored whole, counted, LINK_ERROR (R168). -/
def overrunFrame (s : State) : State :=
  raise .linkError (updCounters (fun k => { k with overrun := satUp16 k.overrun }) s)

/-- A 0xC3 opener (R162, R164, R168). In RECEIVING, and during a fetch, a transfer is under way, so no
transfer can open (notes/assumptions/9.md). -/
def frameStart (s : State) : State :=
  match s.link.state with
  | .idle => setLink (.receiving false) (clockZeros 1 s)
  | .replyReady false => setLink (.receiving true) (clockZeros 1 s)
  | .replyReady true => s
  | .receiving _ => s
  | .executing _ => overrunFrame (clockZeros 1 s)

/-- A 0x3C opener: in REPLY_READY the fetch begins and RDY falls; elsewhere no state changes (R170). During a
fetch no transfer can open. DESIGN CHOICE (notes/assumptions/24.md): a fetch whose opener came in EXECUTING clocks
0x00 to its end, and RDY rises under it when the link reaches REPLY_READY before SEL rises. -/
def fetchStart (s : State) : State :=
  match s.link.state with
  | .replyReady false => setLink (.replyReady true) (clockZeros 1 s)
  | .replyReady true => s
  | .idle => clockZeros 1 s
  | .receiving _ => clockZeros 1 s
  | .executing _ => clockZeros 1 s

/-- A first byte that is no opener: counted, and the rest of the transfer ignored (R162). -/
def badOpener (s : State) : State :=
  updCounters (fun k => { k with openerError := satUp16 k.openerError }) (clockZeros 1 s)

/-- The first byte of a transfer decides what it is (R162). -/
def transferStart (b : Byte) (s : State) : State :=
  if b = Config.frameOpener then frameStart s
  else if b = Config.fetchOpener then fetchStart s
  else badOpener s

/-- OPENER_ERROR (R162). -/
def execOpenerError (b : Byte) (s : State) : Host.Outcome State Fault Refusal :=
  transferBegins (fun s => settle (transferStart b s)) s

/-- FRAME_OPENER (R164). -/
def execFrameOpener (s : State) : Host.Outcome State Fault Refusal :=
  transferBegins (fun s => settle (frameStart s)) s

/-- OVERRUN (R168): the same input as FRAME_OPENER, taken in EXECUTING (notes/assumptions/9.md). -/
def execOverrun (s : State) : Host.Outcome State Fault Refusal :=
  transferBegins (fun s => settle (frameStart s)) s

/-- The link state from which RECEIVING was entered (R164). -/
def cameFrom (fromReady : Bool) : LinkState := if fromReady then .replyReady false else .idle

/-- A frame cut short (R165). In any other state no frame is arriving and there is no truncation. -/
def truncateFrame (s : State) : State :=
  match s.link.state with
  | .receiving fromReady =>
    raise .linkError (updCounters (fun k => { k with truncation := satUp16 k.truncation })
      (setLink (cameFrom fromReady) (clockTruncated s)))
  | .idle => s
  | .executing _ => s
  | .replyReady _ => s

/-- TRUNCATION (R165). -/
def execTruncation (s : State) : Host.Outcome State Fault Refusal :=
  transferEnds clockTruncated truncateFrame s

/-- The dropped-reply counter rises when the frame arrived over an unfetched reply (R166, R168). -/
def LinkCounters.drop (k : LinkCounters) (fromReady : Bool) : LinkCounters :=
  if fromReady then { k with droppedReply := satUp16 k.droppedReply } else k

/-- A complete frame whose CRC does not check (R166): a CHECK reply is stored, and the kept reply stays. -/
def checkFailFrame (fromReady : Bool) (f : Frame) (s : State) : State :=
  raise .linkError (updLink (fun l =>
    { l with state := .replyReady false,
             stored := some { seq := f.seq, status := .check, failIdx := 0, executed := 0, data := [] },
             counters := { l.counters.drop fromReady with checkFail := satUp16 l.counters.checkFail } }) s)

/-- A good frame is a repeat: its sequence is not 0 and is the kept reply's (R167). -/
def Link.isRepeat (l : Link) (f : Frame) : Bool :=
  f.seq != 0 && (match l.kept with | some k => k.seq == f.seq | none => false)

/-- A repeat is answered from the kept reply (R167). -/
def repeatedFrame (s : State) : State :=
  updLink (fun l =>
    { l with state := .replyReady false, stored := l.kept,
             counters := { l.counters with repeats := satUp16 l.counters.repeats } }) s

/-- A good frame that is no repeat is taken for running (R168, R169): an unfetched reply is dropped; a body
above 1024 bytes is answered PARSE; a body without commands is answered at once. -/
def runFrame (fromReady : Bool) (f : Frame) (s : State) : State :=
  let s1 := updLink (fun l =>
    { l with state := .executing { seq := f.seq, body := f.body, nRun := 0, data := [] }, wait := .none,
             stored := if fromReady then none else l.stored, counters := l.counters.drop fromReady }) s
  if Config.maxBody < f.body.length then
    buildReply { seq := f.seq, status := .parse, failIdx := 0, executed := 0, data := [] } s1
  else goOn s1

/-- The frame `f` is complete in RECEIVING: its CRC and its sequence decide what it is (R166, R167, R169). -/
def frameDone (fromReady : Bool) (f : Frame) (s : State) : State :=
  if !f.good then checkFailFrame fromReady f s
  else if s.link.isRepeat f then repeatedFrame s
  else runFrame fromReady f s

/-- The bytes after the opener have arrived. They complete a frame in RECEIVING alone. -/
def frameArrived (bytes : List Byte) (s : State) : State :=
  match s.link.state, parseFrame bytes with
  | .receiving fromReady, some f => frameDone fromReady f (clockZeros bytes.length s)
  | .receiving _, none => s
  | .idle, _ => s
  | .executing _, _ => s
  | .replyReady _, _ => s

/-- CHECK_FAIL (R166). The bytes decide which of the three completions it is (notes/assumptions/9.md), and the
transfer is over with them (notes/assumptions/18.md). -/
def execCheckFail (bytes : List Byte) (s : State) : Host.Outcome State Fault Refusal :=
  transferEnds (clockZeros bytes.length) (frameArrived bytes) s

/-- REPEAT (R167). -/
def execRepeatFrame (bytes : List Byte) (s : State) : Host.Outcome State Fault Refusal :=
  transferEnds (clockZeros bytes.length) (frameArrived bytes) s

/-- COMMAND_FRAME (R169). -/
def execCommandFrame (bytes : List Byte) (s : State) : Host.Outcome State Fault Refusal :=
  transferEnds (clockZeros bytes.length) (frameArrived bytes) s

/-- REPLY_FETCH (R170). -/
def execReplyFetch (s : State) : Host.Outcome State Fault Refusal :=
  transferBegins fetchStart s

/-- `n` bytes clocked out of a reply; bytes beyond its end read 0x00 (R170). -/
def clocked (bytes : List Byte) (n : Nat) : List Byte :=
  bytes.take n ++ List.replicate (n - bytes.length) 0

/-- SEL rises on a fetch in which `n` bytes were clocked (R170): a whole fetch goes to IDLE, a fetch cut
short stays REPLY_READY with RDY raised again; outside REPLY_READY only NOT_READY bytes were clocked. -/
def fetchDone (n : Nat) (s : State) : State :=
  match s.link.state, s.link.stored with
  | .replyReady true, some r =>
    { setLink (if r.bytes.length ≤ n then .idle else .replyReady false) s with
      sdo := s.sdo ++ clocked r.bytes n }
  | .replyReady true, none => setLink (.replyReady false) (clockZeros n s)
  | .replyReady false, _ => clockZeros n s
  | .idle, _ => clockZeros n s
  | .receiving _, _ => clockZeros n s
  | .executing _, _ => clockZeros n s

/-- FETCH_END (R170). -/
def execFetchEnd (n : Nat) (s : State) : Host.Outcome State Fault Refusal :=
  transferEnds (clockZeros n) (fetchDone n) s

/-- The await limit has elapsed since the write of a running AWAIT (R177). -/
def State.awaitDue (s : State) : Bool :=
  match s.link.wait with
  | .await _ since => decide (s.link.awaitLimit ≤ s.elapsed since)
  | .none => false
  | .delay _ _ => false

/-- AWAIT_LIMIT_ELAPSE (R177): the wait ends with the limit as the time waited and the way LIMIT. -/
def execAwaitLimitElapse (s : State) : Host.Outcome State Fault Refusal :=
  live (fun s => if s.awaitDue then endAwait s.link.awaitLimit .limit s else s) s

/-- The length of a running DELAY has elapsed since its write (R179). -/
def State.delayDue (s : State) : Bool :=
  match s.link.wait with
  | .delay n since => decide (n ≤ s.elapsed since)
  | .none => false
  | .await _ _ => false

/-- DELAY_ELAPSE (R179): the frame goes on with its next command; no result item is written. -/
def execDelayElapse (s : State) : Host.Outcome State Fault Refusal :=
  live (fun s => if s.delayDue then goOn (updLink (fun l => { l with wait := .none }) s) else s) s

end Sys2Proof.Machine
end

