-- ==== Sys2Proof/WellFormed.lean ====
section
/-! DEFINITION. The commands the ports can carry (R1, R3, R162, R163). -/

namespace Sys2Proof

/-- A WRITE carries exactly `len` bytes of write data, a READ none (R1). -/
def UReq.wf (r : UReq) : Bool :=
  match r.kind with
  | .read  => r.data.isEmpty
  | .write => r.data.length == r.len.val

/-- The bytes after the opener hold a whole frame: a sequence byte, two bytes of body length, that many
body bytes and two CRC bytes (R163, R196). Bytes after the CRC are ignored by the link. -/
def frameWhole (bytes : List Byte) : Bool :=
  match bytes with
  | _ :: lo :: hi :: rest => decide (lo.toNat + 256 * hi.toNat + 2 ≤ rest.length)
  | _ => false

/-- A command that the ports can carry: the request's data fits its kind and length (R1), a FAULT return
carries no data and an OK one at most 256 bytes (R3), an opener error's byte is no opener (R162), a frame
is whole (R163), and a held request's place is a place of the pool (R81). -/
def Instr.wf : Instr → Bool
  | .take r => r.wf
  | .retry => true
  | .intakeExpiry => true
  | .mPortTake => true
  | .ret _ status data =>
    match status with
    | .ok => decide (data.length ≤ 256)
    | .fault => data.isEmpty
  | .entryExpiry _ => true
  | .heldExpiry _ k => decide (k < 128)
  | .refillBoundary => true
  | .releaseEvent => true
  | .quietRaceTimeEvent _ => true
  | .gaugePeriodEnd _ => true
  | .timeBaseTick => true
  | .powerOnReset => true
  | .resetRelease => true
  | .openerError b => b != 0xC3#8 && b != 0x3C#8
  | .frameOpener => true
  | .overrun => true
  | .truncation => true
  | .checkFail bytes => frameWhole bytes
  | .repeatFrame bytes => frameWhole bytes
  | .commandFrame bytes => frameWhole bytes
  | .replyFetch => true
  | .fetchEnd _ => true
  | .readCommand => true
  | .registerWrite => true
  | .shadowRuleWrite => true
  | .shadowClassWrite => true
  | .commit => true
  | .withdraw => true
  | .refillPeriodWrite => true
  | .ageLimitWrite => true
  | .passReserveWrite => true
  | .poolCapWrite => true
  | .poolLevelWrite => true
  | .sweep => true
  | .regulatorRestart => true
  | .eventFlagClear => true
  | .enableMaskWrite => true
  | .await => true
  | .awaitLimitElapse => true
  | .delay => true
  | .delayElapse => true
  | .linkCounterClear => true
  | .classTallyClear => true
  | .globalTallyClear => true
  | .gaugeSettingsWrite => true
  | .accumulatorLowWordRead => true
  | .accumulatorClear => true
  | .monitorSettingsWrite => true
  | .durationClear => true
  | .captureSettingsWrite => true
  | .arm => true
  | .trigger => true
  | .stop => true
  | .captureDataPortRead => true

end Sys2Proof
end

