-- ==== Sys2Proof/Machine/MemoryPath.lean ====
section
/-! DEFINITION. The meanings of the memory path's commands: take, re-try, M-port take, return, expiries. -/

namespace Sys2Proof.Machine

/-- The take (R6): with the register EMPTY the request is stamped, classified, tallied as an arrival of its
class and placed; with it WAITING the request stays at the interconnect. -/
def takeReq (u : UReq) (s : State) : State :=
  match s.intake with
  | .waiting _ _ => s
  | .empty =>
    let m := s.classifier.active.classify u
    match m.1 with
    | .deny => denyReq u m.2 s
    | .pass => placePass (stampReq u .pass m.2 s) s
    | .cls c =>
      placeClass c (stampReq u (.cls c) m.2 s)
        (tally c (fun t => { t with arrivals := t.arrivals + 1 }) s)

/-- TAKE (R6, R8). A term that no U-port message spells is refused (R1, notes/assumptions/14.md). -/
def execTake (u : UReq) (s : State) : Host.Outcome State Fault Refusal :=
  if u.wf then live (fun s => settle (takeReq u s)) s else .refused .malformedRequest

/-- The re-try on one notice (R10): a WAITING request is placed again with the classification it carries;
with the register EMPTY nothing is done; with no notice outstanding there is no re-try. -/
def retryReq (s : State) : State :=
  match s.admission.retryNotices with
  | 0 => s
  | n + 1 =>
    let s1 := { s with admission := { s.admission with retryNotices := n } }
    match s.intake with
    | .waiting r _ => placeReq r s1
    | .empty => s1

/-- RETRY (R10, R94). -/
def execRetry (s : State) : Host.Outcome State Fault Refusal :=
  live (fun s => settle (retryReq s)) s

/-- INTAKE_EXPIRY (R11): taken when the waiting request has reached a nonzero age limit. -/
def execIntakeExpiry (s : State) : Host.Outcome State Fault Refusal :=
  live (fun s =>
    match s.intake with
    | .waiting r _ => if s.aged r then settle (expireIntake s) else s
    | .empty => s) s

/-- The take of the offered request (R16, R25): the head goes from QUEUED to ISSUED, leaves the issue queue,
and its write data leaves with the downstream request. -/
def issueHead (s : State) : State :=
  match s.table.issueQ with
  | [] => s
  | i :: rest =>
    match s.table.entries[i] with
    | .queued r b =>
      setEntry i (.issued { r with data := [] } b)
        { s with table := { s.table with issueQ := rest },
                 sentDown := s.sentDown ++
                   [{ tag := i, source := r.source, kind := r.kind, addr := r.addr, len := r.len,
                      data := r.data }] }
    | .issued _ _ => s
    | .abandoned _ _ => s
    | .free => s

/-- M_PORT_TAKE (R16, R25). With the issue queue empty there is no offer and nothing is taken. -/
def execMPortTake (s : State) : Host.Outcome State Fault Refusal := live issueHead s

/-- The tallies of a completion (R112, R114). -/
def Tallies.complete (status : RetStatus) (latency : Word) (t : Tallies) : Tallies :=
  { t with completedOk := match status with | .ok => t.completedOk + 1 | .fault => t.completedOk,
           completedFault := match status with | .fault => t.completedFault + 1 | .ok => t.completedFault,
           latencySum := t.latencySum + latency,
           latencyMax := if t.latencyMax < latency then latency else t.latencyMax }

/-- The read data of a DONE answer: the return's for a READ, none for a WRITE (R15). -/
def doneData (kind : ReqKind) (data : List Byte) : List Byte :=
  match kind with
  | .read => data
  | .write => []

/-- The answer of a completion (R28). -/
def answerReturn (r : Req) (status : RetStatus) (data : List Byte) (s : State) : State :=
  match status with
  | .ok => emit r.source r.tag .done (doneData r.kind data) s
  | .fault => raise .fault (emit r.source r.tag .fault [] s)

/-- The tallies a completion offers (R28): the class's, or the global PASS completed. -/
def tallyReturn (r : Req) (status : RetStatus) (latency : Word) (s : State) : State :=
  match r.traffic with
  | .cls c => tally c (Tallies.complete status latency) s
  | .pass => updGauge (fun b => { b with passCompleted := b.passCompleted + 1 }) s

/-- A return for an ISSUED entry completes it (R28). -/
def completeEntry (i : EntryId) (r : Req) (status : RetStatus) (data : List Byte) (s : State) : State :=
  let latency := s.control.time - r.stamp
  let s1 := tallyReturn r status latency (answerReturn r status data s)
  let s2 := offerRecord (.completed latency (status == .fault)) r.body s1
  let s3 := match status with
    | .fault => offerTrigger .fault r.body s2
    | .ok => s2
  entryFreed (outstandingFall r.traffic (setEntry i .free s3))

/-- A late return is dropped and frees its ABANDONED entry (R31). -/
def lateReturn (i : EntryId) (r : Req) (s : State) : State :=
  let s1 := tallyOf r.traffic (fun t => { t with late := t.late + 1 }) (raise .late s)
  entryFreed (setEntry i .free (offerRecord .late r.body s1))

/-- An orphan is dropped and counted (R32). -/
def orphanReturn (s : State) : State :=
  raise .orphan (updGauge (fun b => { b with orphans := b.orphans + 1 }) s)

/-- A return acts by the state of the entry it names (R27). -/
def takeReturn (i : EntryId) (status : RetStatus) (data : List Byte) (s : State) : State :=
  match s.table.entries[i] with
  | .issued r _ => completeEntry i r status data s
  | .abandoned r _ => lateReturn i r s
  | .queued _ _ => orphanReturn s
  | .free => orphanReturn s

/-- RETURN (R27). -/
def execRet (i : EntryId) (status : RetStatus) (data : List Byte) (s : State) :
    Host.Outcome State Fault Refusal :=
  live (fun s => settle (takeReturn i status data s)) s

/-- The entry is QUEUED or ISSUED and has reached the age limit (R26). -/
def State.entryAged (s : State) (i : EntryId) : Bool :=
  match s.table.entries[i] with
  | .queued r _ => s.aged r
  | .issued r _ => s.aged r
  | .abandoned _ _ => false
  | .free => false

/-- ENTRY_EXPIRY (R26, R30, R33). -/
def execEntryExpiry (i : EntryId) (s : State) : Host.Outcome State Fault Refusal :=
  live (fun s => if s.entryAged i then settle (expireEntry i s) else s) s

/-- The request at place `k` of class `c`'s queue has reached the age limit (R92). -/
def State.heldAged (s : State) (c : ClassId) (k : Nat) : Bool :=
  match (s.cls c).queue[k]? with
  | some r => s.aged r
  | none => false

/-- HELD_EXPIRY (R92). -/
def execHeldExpiry (c : ClassId) (k : Nat) (s : State) : Host.Outcome State Fault Refusal :=
  live (fun s => if s.heldAged c k then settle (expireHeld c k s) else s) s

end Sys2Proof.Machine
end

