-- ==== Sys2Proof/Machine/Panels.lean ====
section
/-! DEFINITION. The elements of the eight panels: what each reads, and what a write of each does (R192 to R204). -/

namespace Sys2Proof.Machine

/-! ### Reads -/

/-- Panel 0: identity (R194). -/
def readIdentity (pos : Nat) : Word :=
  match pos with
  | 0 => Config.partCode
  | 1 => Config.revision
  | 2 => BitVec.ofNat 32 Config.tableEntries
  | 3 => BitVec.ofNat 32 Config.holdSlots
  | 4 => BitVec.ofNat 32 Config.rulesPerBank
  | 5 => BitVec.ofNat 32 Config.classCount
  | 6 => BitVec.ofNat 32 Config.gaugeCount
  | 7 => BitVec.ofNat 32 Config.captureRecords
  | _ => 0

/-- A bank's elements: rules at 0..191, the default result at 192 (R197). -/
def Bank.element (b : Bank) (pos : Nat) : Word :=
  if h : pos / 4 < 48 then (b.rules[pos / 4]).word (pos % 4)
  else if pos = 192 then put 0 5 b.dflt.code
  else 0

/-- Panel 1: rules (R49, R197). -/
def readRules (pos : Nat) (s : State) : Word :=
  if pos < 512 then s.classifier.shadow.element pos
  else if pos = 705 then put 0 16 s.classifier.epoch.toNat
  else s.classifier.active.element (pos - 512)

/-- Panel 2: class settings (R49, R198). -/
def readClassSettings (pos : Nat) (s : State) : Word :=
  if pos < 512 then
    if h : pos / 4 < 16 then ((s.cls ⟨pos / 4, h⟩).shadow).word (pos % 4) else 0
  else
    if h : (pos - 512) / 4 < 16 then ((s.cls ⟨(pos - 512) / 4, h⟩).active).word ((pos - 512) % 4) else 0

/-- Offset 4..16 of a class: its tallies (R199). -/
def Tallies.word (t : Tallies) (off : Nat) : Word :=
  match off with
  | 4 => t.arrivals
  | 5 => t.held
  | 6 => t.admitted
  | 7 => t.readBytes
  | 8 => t.writeBytes
  | 9 => t.borrowedBytes
  | 10 => t.bounced
  | 11 => t.expired
  | 12 => t.completedOk
  | 13 => t.completedFault
  | 14 => t.latencySum
  | 15 => t.latencyMax
  | 16 => t.late
  | _ => 0

/-- A quiet state's code (R199). -/
def quietCode : QuietState → Nat
  | .active => 0
  | .quiet => 1

/-- The elements of class `c` in panel 3 (R199). -/
def readClassState (c : ClassId) (off : Nat) (s : State) : Word :=
  let k := s.cls c
  match off with
  | 0 => BitVec.ofInt 32 k.credit
  | 1 => put 0 7 k.outstanding ||| put 8 8 k.queue.length ||| put 16 3 k.reason.code |||
      put 20 1 (quietCode k.quiet)
  | 2 => put 0 24 k.raceTime
  | 3 => put 0 24 k.raceBytes
  | _ => (s.gauge.tallies[c]).word off

/-- The entry-wait set, bit c for class c (R86, R199). -/
def entryWaitWord (s : State) : Word :=
  (List.finRange 16).foldl (fun w c => w ||| put c.val 1 (b2n (s.inEntryWait c))) 0

/-- Panel 3: class state, pool and tallies (R199). -/
def readStatePanel (pos : Nat) (s : State) : Word :=
  if h : pos / 32 < 16 then readClassState ⟨pos / 32, h⟩ (pos % 32) s
  else
    match pos with
    | 512 => BitVec.ofNat 32 s.freeSlots
    | 513 => entryWaitWord s
    | 514 => put 0 4 s.admission.pointers[0].val ||| put 4 4 s.admission.pointers[1].val |||
        put 8 4 s.admission.pointers[2].val ||| put 12 4 s.admission.pointers[3].val
    | 515 => s.gauge.denied
    | 516 => s.gauge.passAdmitted
    | 517 => s.gauge.passCompleted
    | 518 => s.gauge.orphans
    | 519 => s.gauge.sweeps
    | _ => 0

/-- Monitor state and verdict codes (R200). -/
def monStateCode : MonState → Nat
  | .normal => 0
  | .over => 1
  | .under => 2

def verdictCode : Verdict → Nat
  | .none => 0
  | .high => 1
  | .low => 2
  | .normal => 3

/-- Panel 4: gauge `g` and its monitor at offset `off` (R200); the accumulator low word is read by
`readLowWord`, which acts. -/
def readGaugePanel (g : GaugeId) (off : Nat) (s : State) : Word :=
  let k := s.gauge.gauges[g]
  let m := s.gauge.monitors[g]
  match off with
  | 0 => k.settings.word 0
  | 1 => k.settings.word 1
  | 2 => k.acc.truncate 32
  | 3 => k.latch
  | 4 => put 0 1 (b2n k.wrapped)
  | 6 => m.settings.word 6
  | 7 => m.settings.word 7
  | 8 => m.settings.word 8
  | 9 => m.settings.word 9
  | 10 => put 0 2 (monStateCode m.live.state) ||| put 4 2 (verdictCode m.live.verdict) |||
      put 8 8 m.live.pos ||| put 16 8 m.live.high ||| put 24 8 m.live.low
  | 11 => put 0 8 m.live.highRun ||| put 8 8 m.live.lowRun ||| put 16 8 m.live.clearRun
  | 12 => put 0 24 m.overWindows
  | 13 => put 0 24 m.underWindows
  | _ => 0

/-- Capture state codes (R201). -/
def capStateCode : CapState → Nat
  | .idle => 0
  | .armed => 1
  | .triggered => 2
  | .done => 3

/-- Panel 5: capture (R201); the data port is read by `readPort`, which acts. -/
def readCapturePanel (pos : Nat) (s : State) : Word :=
  let c := s.capture
  match pos with
  | 0 => c.settings.word 0
  | 1 => c.settings.word 1
  | 2 => c.settings.word 2
  | 3 => c.settings.word 3
  | 4 => c.settings.word 4
  | 5 => put 0 2 (capStateCode c.state) ||| put 4 3 c.wordPos.val ||| put 16 10 c.buffer.length
  | 6 => put 0 9 c.preHeld ||| put 16 9 c.postAppended
  | 7 => BitVec.ofNat 32 c.dropped
  | _ => 0

/-- The commit fault item (R203). -/
def commitFaultWord : CommitFault → Word
  | .none => 0
  | .rule r e => put 0 2 1 ||| put 8 6 r.val ||| put 16 3 (match e with | .baseAboveLimit => 1 | .minAboveMax => 2)
  | .cls c e => put 0 2 2 ||| put 8 6 c.val |||
      put 16 3 (match e with | .limitRange => 3 | .quotaRange => 4 | .raceZero => 5)

/-- The intake status item (R5, R203). -/
def intakeWord : IntakeReg → Word
  | .empty => 0
  | .waiting r why => put 0 1 1 ||| put 1 1 (match why with | .slot => 0 | .entry => 1) |||
      put 4 5 r.traffic.code ||| put 16 8 r.source.toNat ||| put 24 8 r.tag.toNat

/-- The intake stamp item (R203). -/
def intakeStampWord : IntakeReg → Word
  | .empty => 0
  | .waiting r _ => r.stamp

/-- The await result item (R203). -/
def awaitResultWord (l : Link) : Word :=
  put 0 16 l.awaitTime ||| put 16 2 (match l.awaitWay with | .none => 0 | .event => 1 | .limit => 2)

/-- Panel 6: control (R203). -/
def readControlPanel (pos : Nat) (s : State) : Word :=
  match pos with
  | 0 => put 0 16 s.control.flags0.toNat
  | 1 => put 0 16 s.control.flags1.toNat
  | 2 => put 0 16 s.control.mask0.toNat
  | 3 => put 0 16 s.control.mask1.toNat
  | 4 => intakeWord s.intake
  | 5 => intakeStampWord s.intake
  | 6 => put 0 1 (b2n s.classifier.commitPending)
  | 8 => commitFaultWord s.classifier.fault
  | 9 => put 0 16 s.classifier.epoch.toNat
  | 10 => BitVec.ofNat 32 s.admission.refillPeriod
  | 11 => BitVec.ofNat 32 s.table.ageLimit
  | 12 => BitVec.ofNat 32 s.table.passReserve
  | 13 => BitVec.ofNat 32 s.admission.poolCap
  | 14 => BitVec.ofNat 32 s.admission.poolLevel
  | 15 => s.control.time
  | 19 => put 0 16 s.link.awaitMask1.toNat
  | 20 => BitVec.ofNat 32 s.link.awaitLimit
  | 21 => awaitResultWord s.link
  | 23 => put 0 16 s.link.counters.openerError
  | 24 => put 0 16 s.link.counters.truncation
  | 25 => put 0 16 s.link.counters.checkFail
  | 26 => put 0 16 s.link.counters.overrun
  | 27 => put 0 16 s.link.counters.droppedReply
  | 28 => put 0 16 s.link.counters.repeats
  | _ => 0

/-- The issue-queue position of an entry: its place in the queue, 127 for none (R204). -/
def State.queuePos (s : State) (i : EntryId) : Nat :=
  if s.table.entries[i].isQueued then (s.table.issueQ.findIdx? (fun j => j == i)).getD 127 else 127

/-- Offset 0..4 of a table entry that holds a request (R204). -/
def entryWord (state : Nat) (r : Req) (borrowed : Bool) (qpos : Nat) (off : Nat) : Word :=
  match off with
  | 0 => put 0 2 state ||| put 4 5 r.traffic.code ||| put 12 1 (kindCode r.kind) |||
      put 13 1 (b2n borrowed) ||| put 14 1 (b2n r.mark) ||| put 16 7 qpos
  | 1 => put 0 8 r.source.toNat ||| put 8 8 r.tag.toNat ||| put 16 9 r.len.val
  | 2 => BitVec.ofNat 32 r.addr.toNat
  | 3 => put 0 8 (r.addr.toNat / 2 ^ 32) ||| put 16 16 r.epoch.toNat
  | 4 => r.stamp
  | _ => 0

/-- The elements of entry `i` in panel 7 (R40, R204). -/
def readEntry (i : EntryId) (off : Nat) (s : State) : Word :=
  match s.table.entries[i] with
  | .free => if off = 0 then put 16 7 127 else 0
  | .queued r b => entryWord 1 r b (s.queuePos i) off
  | .issued r b => entryWord 2 r b (s.queuePos i) off
  | .abandoned r b => entryWord 3 r b (s.queuePos i) off

/-- Panel 7: the table view (R204). -/
def readTablePanel (pos : Nat) (s : State) : Word :=
  if h : pos / 8 < 64 then readEntry ⟨pos / 8, h⟩ (pos % 8) s
  else
    match pos with
    | 512 => BitVec.ofNat 32 s.freeEntries
    | 513 => BitVec.ofNat 32 (s.table.entries.toList.countP Entry.isQueued)
    | 514 => BitVec.ofNat 32 (s.table.entries.toList.countP Entry.isIssued)
    | 515 => BitVec.ofNat 32 (s.table.entries.toList.countP Entry.isAbandoned)
    | _ => 0

/-- The value an element has; 0 at a position with no item (R173, R176, R193). -/
def readElem (panel : Fin 8) (pos : Nat) (s : State) : Word :=
  match panel.val with
  | 0 => readIdentity pos
  | 1 => readRules pos s
  | 2 => readClassSettings pos s
  | 3 => readStatePanel pos s
  | 4 => if h : pos / 16 < 8 then readGaugePanel ⟨pos / 16, h⟩ (pos % 16) s else 0
  | 5 => readCapturePanel pos s
  | 6 => readControlPanel pos s
  | _ => readTablePanel pos s

/-- A read of a gauge's accumulator low word latches the upper 16 bits, sign-extended (R123). -/
def latchHigh (g : GaugeId) (s : State) : State :=
  updGauge (fun b => { b with gauges := updAt b.gauges g (fun k =>
    { k with latch := ((k.acc.extractLsb' 32 16).signExtend 32) }) }) s

/-- A read of the data port (R156, R157): the next word of the head record in DONE, which the eighth word
consumes; the last record consumed takes the state to IDLE; the EMPTY word otherwise. -/
def Capture.portRead (c : Capture) : Word × Capture :=
  match c.state, c.buffer with
  | .done, r :: rest =>
    (r.word c.wordPos,
      if c.wordPos = 7 then
        { c with buffer := rest, preHeld := c.preHeld - 1, wordPos := 0,
                 state := if rest.isEmpty then .idle else .done }
      else { c with wordPos := c.wordPos + 1 })
  | .done, [] => (emptyWord, c)
  | .idle, _ => (emptyWord, c)
  | .armed, _ => (emptyWord, c)
  | .triggered, _ => (emptyWord, c)

/-- One element of a read command (R173): `s0` is the state at the start of the command, `s` the state that
the earlier reads of the command have left. The low word, the high word and the data port are read against
`s`; everything else comes from `s0`. -/
def readOne (panel : Fin 8) (pos : Nat) (s0 s : State) : Word × State :=
  if panel = 4 then
    if h : pos / 16 < 8 then
      if pos % 16 = 2 then (readGaugePanel ⟨pos / 16, h⟩ 2 s, latchHigh ⟨pos / 16, h⟩ s)
      else if pos % 16 = 3 then (readGaugePanel ⟨pos / 16, h⟩ 3 s, s)
      else (readElem panel pos s0, s)
    else (readElem panel pos s0, s)
  else if panel = 5 ∧ pos = 11 then
    (s.capture.portRead.1, { s with capture := s.capture.portRead.2 })
  else (readElem panel pos s0, s)

/-- The elements of a read command, in element order (R173). -/
def readAll (panel : Fin 8) (s0 : State) : List Nat → State → List Word × State
  | [], s => ([], s)
  | p :: ps, s =>
    let r := readOne panel p s0 s
    let q := readAll panel s0 ps r.2
    (r.1 :: q.1, q.2)

/-! ### Writes -/

/-- What a write of one element comes to: its effect, a refusal by the state of the owning block (check 5 of
R174), or a refusal of its value (check 6), with the commit fault item that a failed COMMIT leaves (R52). -/
inductive Written where
  | done (s : State)
  | stateRefused
  | invalid (fault : Option CommitFault)

/-- SHADOW_RULE_WRITE: a shadow rule or the shadow default result (R48, R197). -/
def writeShadowRule (pos : Nat) (v : Word) (s : State) : Written :=
  if s.classifier.commitPending then .stateRefused
  else
    let b := s.classifier.shadow
    if h : pos / 4 < 48 then
      match (b.rules[pos / 4]).write (pos % 4) v with
      | some k =>
        .done { s with classifier := { s.classifier with
          shadow := { b with rules := b.rules.set (pos / 4) k h } } }
      | none => .invalid none
    else
      match Result.ofCode (field v 0 5).toNat with
      | some r => .done { s with classifier := { s.classifier with shadow := { b with dflt := r } } }
      | none => .invalid none

/-- SHADOW_CLASS_WRITE: an element of a class's shadow settings (R48, R198). -/
def writeShadowClass (pos : Nat) (v : Word) (s : State) : Written :=
  if s.classifier.commitPending then .stateRefused
  else if h : pos / 4 < 16 then
    .done (updCls ⟨pos / 4, h⟩ (fun k => { k with shadow := k.shadow.write (pos % 4) v }) s)
  else .done s

/-- CLASS_TALLY_CLEAR (R116). -/
def clearClassTallies (c : ClassId) (s : State) : State := tally c (fun _ => Tallies.zero) s

/-- GLOBAL_TALLY_CLEAR (R116). -/
def clearGlobalTallies (s : State) : State :=
  updGauge (fun b =>
    { b with denied := 0, passAdmitted := 0, passCompleted := 0, orphans := 0, sweeps := 0 }) s

/-- An accepted write of gauge settings restarts the gauge and its monitor; accumulator, latch and wrapped
indicator are kept (R125). -/
def restartGauge (g : GaugeId) (st : GaugeSettings) (s : State) : State :=
  updGauge (fun b =>
    { b with gauges := updAt b.gauges g (fun k =>
               { k with settings := st, a := 0, b := 0, start := s.control.time }),
             monitors := updAt b.monitors g Monitor.restart }) s

/-- GAUGE_SETTINGS_WRITE: element 0 or 1 of gauge `g` (R118, R125). -/
def writeGaugeSettings (g : GaugeId) (off : Nat) (v : Word) (s : State) : Written :=
  match (s.gauge.gauges[g].settings).write off v with
  | some st => .done (restartGauge g st s)
  | none => .invalid none

/-- ACCUMULATOR_CLEAR (R124). -/
def clearAccumulator (g : GaugeId) (s : State) : State :=
  updGauge (fun b => { b with gauges := updAt b.gauges g (fun k =>
    { k with acc := 0, latch := 0, wrapped := false }) }) s

/-- MONITOR_SETTINGS_WRITE: element 6 to 9 of gauge `g`'s monitor (R128, R139). -/
def writeMonSettings (g : GaugeId) (off : Nat) (v : Word) (s : State) : Written :=
  match (s.gauge.monitors[g].settings).write off v with
  | some st =>
    .done (updGauge (fun b => { b with monitors := updAt b.monitors g (fun m =>
      ({ m with settings := st } : Monitor).restart) }) s)
  | none => .invalid none

/-- DURATION_CLEAR (R137). -/
def clearDurations (g : GaugeId) (s : State) : State :=
  updGauge (fun b => { b with monitors := updAt b.monitors g (fun m =>
    { m with overWindows := 0, underWindows := 0 }) }) s

/-- The capture is under way (R146). -/
def Capture.busy (c : Capture) : Bool := c.state == .armed || c.state == .triggered

/-- CAPTURE_SETTINGS_WRITE: element 0 to 4 of panel 5 (R146, R201). -/
def writeCapSettings (pos : Nat) (v : Word) (s : State) : Written :=
  if s.capture.busy then .stateRefused
  else
    match s.capture.settings.write pos v with
    | some c => .done { s with capture := { s.capture with settings := c } }
    | none => .invalid none

/-- ARM (R149). -/
def writeArm (s : State) : Written :=
  if s.capture.busy then .stateRefused
  else if 512 < s.capture.settings.preCount + s.capture.settings.postCount + 1 then .invalid none
  else
    .done { s with capture := { settings := s.capture.settings, state := .armed, buffer := [], preHeld := 0,
                                postAppended := 0, dropped := 0, wordPos := 0 } }

/-- TRIGGER (R152). -/
def writeTrigger (s : State) : Written :=
  if s.capture.state = .armed then .done (offerTrigger .command RecBody.zero s) else .stateRefused

/-- STOP (R154). -/
def stopCapture (s : State) : State :=
  if s.capture.busy then raise .captureDone { s with capture := { s.capture with state := .done } } else s

/-- COMMIT (R52, R53): the shadow set is validated; a failure is refused INVALID and leaves the commit fault
item, and a good set makes the commit PENDING. -/
def writeCommit (s : State) : Written :=
  if s.classifier.commitPending then .stateRefused
  else
    match s.validate with
    | .none => .done { s with classifier := { s.classifier with commitPending := true, fault := .none } }
    | .rule r e => .invalid (some (.rule r e))
    | .cls c e => .invalid (some (.cls c e))

/-- WITHDRAW (R54). -/
def withdrawCommit (s : State) : State :=
  { s with classifier := { s.classifier with commitPending := false } }

/-- REFILL_PERIOD_WRITE (R64). -/
def writeRefillPeriod (v : Word) (s : State) : Written :=
  if 1 ≤ v.toNat ∧ v.toNat ≤ 4096 then
    .done { s with admission := { s.admission with
      refillPeriod := v.toNat, refillStart := s.control.time } }
  else .invalid none

/-- The first held request, in class order and oldest first, that has reached the age limit (R93). -/
def State.nextHeld (s : State) : Option (ClassId × Nat) :=
  (List.finRange 16).findSome? (fun c =>
    ((s.cls c).queue.findIdx? (fun r => s.aged r)).map (fun k => (c, k)))

/-- The first QUEUED or ISSUED entry, in index order, that has reached the age limit (R26). -/
def State.nextEntry (s : State) : Option EntryId :=
  (List.finRange 64).find? (fun i => s.entryAged i)

/-- The waiting request has reached the age limit (R11). -/
def State.intakeAged (s : State) : Bool :=
  match s.intake with
  | .waiting r _ => s.aged r
  | .empty => false

/-- A request that an expiry can be taken for, by the block that holds it. -/
inductive Expirable where
  | intake
  | held (c : ClassId) (k : Nat)
  | entry (i : EntryId)
deriving DecidableEq, Repr

/-- Its expiry (R11, R92, R30, R33). -/
def expireOne (x : Expirable) (s : State) : State :=
  match x with
  | .intake => expireIntake s
  | .held c k => expireHeld c k s
  | .entry i => expireEntry i s

/-- The next expiry of each block that has one, the block that `p` names first. -/
def State.expirables (s : State) (p : Fin 3) : List Expirable :=
  let a := if s.intakeAged then [Expirable.intake] else []
  let h := (s.nextHeld.map (fun x => Expirable.held x.1 x.2)).toList
  let e := (s.nextEntry.map Expirable.entry).toList
  match p.val with
  | 0 => a ++ (h ++ e)
  | 1 => h ++ (e ++ a)
  | _ => e ++ (a ++ h)

/-- The expiries that a write of the age limit causes (R11, R26, R93): in class order and oldest first among
held requests, in index order in the table; where more than one block has one, a free choice says which
block's is taken. `n` bounds their number. -/
def expireAll : Nat → State → State
  | 0, s => s
  | n + 1, s =>
    match s.expirables 0 with
    | [] => s
    | [x] => expireAll n (expireOne x s)
    | x :: _ :: _ =>
      expireAll n (expireOne ((s.expirables (Config.ageWritePick s.freePicks)).headD x) (drawPick s))

/-- AGE_LIMIT_WRITE (R26). At most one request waits, `heldTotal` are held and 64 are in the table. -/
def writeAgeLimit (v : Word) (s : State) : Written :=
  if v.toNat ≤ 65535 then
    .done (expireAll (1 + s.heldTotal + 64) { s with table := { s.table with ageLimit := v.toNat } })
  else .invalid none

/-- PASS_RESERVE_WRITE (R23): a lower value starts release evaluation and gives a notice, a higher one sets
the reasons, the same one changes nothing. -/
def writePassReserve (v : Word) (s : State) : Written :=
  if 16 < v.toNat then .invalid none
  else
    let s1 := { s with table := { s.table with passReserve := v.toNat } }
    if v.toNat < s.table.passReserve then .done (notice (startEval s1))
    else if s.table.passReserve < v.toNat then .done (setReasons s1)
    else .done s

/-- The pool level becomes `n`: a rise starts release evaluation and gives a notice (R87, R94), a fall sets
the reasons of the held heads (R85). -/
def setPoolLevel (n : Nat) (s : State) : State :=
  let s1 := { s with admission := { s.admission with poolLevel := n } }
  if s.admission.poolLevel < n then notice (startEval s1)
  else if n < s.admission.poolLevel then setReasons s1
  else s

/-- POOL_CAP_WRITE (R108). -/
def writePoolCap (v : Word) (s : State) : Written :=
  if 65535 < v.toNat then .invalid none
  else
    .done (setPoolLevel (min s.admission.poolLevel v.toNat)
      { s with admission := { s.admission with poolCap := v.toNat } })

/-- POOL_LEVEL_WRITE (R107). -/
def writePoolLevel (v : Word) (s : State) : State := setPoolLevel (min v.toNat s.admission.poolCap) s

/-- One entry of a sweep: an ABANDONED entry is freed (R36). -/
def sweepEntry (s : State) (i : EntryId) : State :=
  if s.table.entries[i].isAbandoned then entryFreed (setEntry i .free s) else s

/-- SWEEP (R36): the ABANDONED entries in ascending order, then the tally and SWEPT. -/
def sweepTable (s : State) : State :=
  raise .swept (updGauge (fun b => { b with sweeps := b.sweeps + 1 })
    ((List.finRange 64).foldl sweepEntry s))

/-- The BOUNCE answers of regulator restart, in class order and oldest first (R97). -/
def restartAnswers (s : State) : List Answer :=
  s.admission.classes.toList.flatMap (fun k =>
    k.queue.map (fun r => { source := r.source, tag := r.tag, status := .bounce, data := [] }))

/-- A class record after regulator restart (R79). -/
def ClassRec.restart (k : ClassRec) : ClassRec :=
  { k with credit := k.active.cap.toNat, queue := [], reason := .none, quiet := .active, raceTime := 0,
           raceBytes := 0 }

/-- A gauge after regulator restart (R127). -/
def Gauge.restart (g : Gauge) (now : Stamp) : Gauge :=
  { g with a := 0, b := 0, start := now, acc := 0, latch := 0, wrapped := false }

/-- A monitor after regulator restart (R140). -/
def Monitor.clear (m : Monitor) : Monitor := { m.restart with overWindows := 0, underWindows := 0 }

/-- REGULATOR_RESTART (R189): classifier (R58), admission unit (R79, R97, R111), gauge block (R117, R127, R140)
and capture unit (R159) in one event; the intake is given one notice (R12). -/
def regulatorRestart (s : State) : State :=
  let s1 : State :=
    { s with
      classifier := { s.classifier with commitPending := false },
      admission := { s.admission with
        classes := mapAll (fun _ k => k.restart) s.admission.classes, poolLevel := 0,
        pointers := Vector.replicate 4 15 },
      gauge := { s.gauge with
        tallies := Vector.replicate 16 Tallies.zero, denied := 0, passAdmitted := 0, passCompleted := 0,
        orphans := 0, sweeps := 0, gauges := mapAll (fun _ g => g.restart s.control.time) s.gauge.gauges,
        monitors := mapAll (fun _ m => m.clear) s.gauge.monitors },
      capture := { s.capture with
        state := .idle, buffer := [], preHeld := 0, postAppended := 0, dropped := 0, wordPos := 0 },
      answers := s.answers ++ restartAnswers s }
  notice (raiseIf (decide (0 < s.heldTotal)) .bounced s1)

/-- AWAIT (R177): the wait ends in the event of the write when a masked flag is set or the limit is 0, and
begins otherwise. -/
def writeAwait (v : Word) (s : State) : State :=
  let m0 := field v 0 16
  if maskedFlagSet m0 s.link.awaitMask1 s then
    updLink (fun l => { l with awaitTime := 0, awaitWay := .event }) s
  else if s.link.awaitLimit = 0 then updLink (fun l => { l with awaitTime := 0, awaitWay := .limit }) s
  else updLink (fun l => { l with wait := .await m0 s.control.time }) s

/-- DELAY (R179): a delay of 0 ends in the event of its write. -/
def writeDelay (v : Word) (s : State) : Written :=
  if 65535 < v.toNat then .invalid none
  else if v.toNat = 0 then .done s
  else .done (updLink (fun l => { l with wait := .delay v.toNat s.control.time }) s)

/-- A write of the await limit (R177). -/
def writeAwaitLimit (v : Word) (s : State) : Written :=
  if 65535 < v.toNat then .invalid none
  else .done (updLink (fun l => { l with awaitLimit := v.toNat }) s)

/-- A write of an element of panel 3 (R116, R199). -/
def writeStatePanel (pos : Nat) (s : State) : State :=
  if h : pos / 32 < 16 then clearClassTallies ⟨pos / 32, h⟩ s else clearGlobalTallies s

/-- A write of offset `off` of gauge `g` in panel 4 (R200). -/
def writeGaugePanel (g : GaugeId) (off : Nat) (v : Word) (s : State) : Written :=
  match off with
  | 0 => writeGaugeSettings g 0 v s
  | 1 => writeGaugeSettings g 1 v s
  | 5 => .done (clearAccumulator g s)
  | 6 => writeMonSettings g 6 v s
  | 7 => writeMonSettings g 7 v s
  | 8 => writeMonSettings g 8 v s
  | 9 => writeMonSettings g 9 v s
  | 14 => .done (clearDurations g s)
  | _ => .done s

/-- A write of an element of panel 5 (R201). -/
def writeCapturePanel (pos : Nat) (v : Word) (s : State) : Written :=
  match pos with
  | 0 => writeCapSettings 0 v s
  | 1 => writeCapSettings 1 v s
  | 2 => writeCapSettings 2 v s
  | 3 => writeCapSettings 3 v s
  | 4 => writeCapSettings 4 v s
  | 8 => writeArm s
  | 9 => writeTrigger s
  | 10 => .done (stopCapture s)
  | _ => .done s

/-- A write of an element of panel 6 (R203). -/
def writeControlPanel (pos : Nat) (v : Word) (s : State) : Written :=
  match pos with
  | 0 => .done (clearFlags0 (field v 0 16) s)
  | 1 => .done (clearFlags1 (field v 0 16) s)
  | 2 => .done (setMask0 (field v 0 16) s)
  | 3 => .done (setMask1 (field v 0 16) s)
  | 6 => writeCommit s
  | 7 => .done (withdrawCommit s)
  | 10 => writeRefillPeriod v s
  | 11 => writeAgeLimit v s
  | 12 => writePassReserve v s
  | 13 => writePoolCap v s
  | 14 => .done (writePoolLevel v s)
  | 16 => .done (regulatorRestart s)
  | 17 => .done (sweepTable s)
  | 18 => .done (writeAwait v s)
  | 19 => .done (updLink (fun l => { l with awaitMask1 := field v 0 16 }) s)
  | 20 => writeAwaitLimit v s
  | 22 => writeDelay v s
  | 29 => .done (updCounters (fun _ => LinkCounters.zero) s)
  | _ => .done s

/-- A write of one writable element; the other positions are refused ACCESS before (R174, R192). -/
def writeElem (panel : Fin 8) (pos : Nat) (v : Word) (s : State) : Written :=
  match panel.val with
  | 1 => writeShadowRule pos v s
  | 2 => writeShadowClass pos v s
  | 3 => .done (writeStatePanel pos s)
  | 4 => if h : pos / 16 < 8 then writeGaugePanel ⟨pos / 16, h⟩ (pos % 16) v s else .done s
  | 5 => writeCapturePanel pos v s
  | 6 => writeControlPanel pos v s
  | _ => .done s

end Sys2Proof.Machine
end

