-- ==== Sys2Proof/Machine/LinkCommands.lean ====
section
/-! DEFINITION. The commands of the running frame: which row an element belongs to, the checks of R174, the run of one command, and the meanings of the thirty rows. -/

namespace Sys2Proof.Machine

/-- The rows of the table that are commands of a frame. -/
inductive Row where
  | readCommand
  | registerWrite
  | shadowRuleWrite
  | shadowClassWrite
  | commit
  | withdraw
  | refillPeriodWrite
  | ageLimitWrite
  | passReserveWrite
  | poolCapWrite
  | poolLevelWrite
  | sweep
  | regulatorRestart
  | eventFlagClear
  | enableMaskWrite
  | await
  | delay
  | linkCounterClear
  | classTallyClear
  | globalTallyClear
  | gaugeSettingsWrite
  | accumulatorLowWordRead
  | accumulatorClear
  | monitorSettingsWrite
  | durationClear
  | captureSettingsWrite
  | arm
  | trigger
  | stop
  | captureDataPortRead
deriving DecidableEq, Repr

/-- The row of a write at an offset of a gauge's 16 positions (R200). -/
def gaugeRow (off : Nat) : Row :=
  match off with
  | 0 => .gaugeSettingsWrite
  | 1 => .gaugeSettingsWrite
  | 5 => .accumulatorClear
  | 6 => .monitorSettingsWrite
  | 7 => .monitorSettingsWrite
  | 8 => .monitorSettingsWrite
  | 9 => .monitorSettingsWrite
  | 14 => .durationClear
  | _ => .registerWrite

/-- The row of a write of panel 5 (R201). -/
def captureRow (pos : Nat) : Row :=
  match pos with
  | 0 => .captureSettingsWrite
  | 1 => .captureSettingsWrite
  | 2 => .captureSettingsWrite
  | 3 => .captureSettingsWrite
  | 4 => .captureSettingsWrite
  | 8 => .arm
  | 9 => .trigger
  | 10 => .stop
  | _ => .registerWrite

/-- The row of a write of panel 6 (R203). -/
def controlRow (pos : Nat) : Row :=
  match pos with
  | 0 => .eventFlagClear
  | 1 => .eventFlagClear
  | 2 => .enableMaskWrite
  | 3 => .enableMaskWrite
  | 6 => .commit
  | 7 => .withdraw
  | 10 => .refillPeriodWrite
  | 11 => .ageLimitWrite
  | 12 => .passReserveWrite
  | 13 => .poolCapWrite
  | 14 => .poolLevelWrite
  | 16 => .regulatorRestart
  | 17 => .sweep
  | 18 => .await
  | 22 => .delay
  | 29 => .linkCounterClear
  | _ => .registerWrite

/-- The row to which a write of an element belongs: the row of its item, and REGISTER_WRITE where the item
has no behaviour of its own or takes no write (R174, R176). -/
def writeRow (panel : Fin 8) (pos : Nat) : Row :=
  match panel.val with
  | 1 => if pos ≤ 192 then .shadowRuleWrite else .registerWrite
  | 2 => if pos < 64 then .shadowClassWrite else .registerWrite
  | 3 => if pos < 512 then (if pos % 32 = 17 then .classTallyClear else .registerWrite)
         else if pos = 520 then .globalTallyClear else .registerWrite
  | 4 => if pos < 128 then gaugeRow (pos % 16) else .registerWrite
  | 5 => captureRow pos
  | 6 => controlRow pos
  | _ => .registerWrite

/-- The row to which a read of an element belongs: the two elements that act when they are read have their
own (R123, R156, R173). -/
def readRow (panel : Fin 8) (pos : Nat) : Row :=
  if panel = 4 ∧ pos < 128 ∧ pos % 16 = 2 then .accumulatorLowWordRead
  else if panel = 5 ∧ pos = 11 then .captureDataPortRead
  else .readCommand

/-- The element takes a write: it has a row of its own, or it is the await word-1 mask or the await limit
(R174, R176). -/
def writable (panel : Fin 8) (pos : Nat) : Bool :=
  writeRow panel pos != .registerWrite || (panel == 6 && (pos == 19 || pos == 20))

/-- The await item and the delay item take no read (R176). -/
def writeOnly (panel : Fin 8) (pos : Nat) : Bool := panel == 6 && (pos == 18 || pos == 22)

/-- The command's row of the table is `row`: some element of it belongs to the row; a command without an
element belongs to READ_COMMAND or REGISTER_WRITE by its write flag (notes/assumptions/20.md). -/
def Cmd.isRow (k : Cmd) (cursor : BitVec 16) (row : Row) : Bool :=
  if k.write then
    (k.positions cursor).any (fun p => writeRow k.panel p == row) ||
      ((k.positions cursor).isEmpty && row == .registerWrite)
  else
    (k.positions cursor).any (fun p => readRow k.panel p == row) ||
      ((k.positions cursor).isEmpty && row == .readCommand)

/-! ### The checks (R174) -/

/-- Check 1, PARSE: the body ends inside the command, its count is 0, or it writes the await item or the
delay item with a count above 1. -/
def Cmd.parseFails (k : Cmd) (cursor : BitVec 16) : Bool :=
  !k.whole || (k.write && decide (1 < k.count) && (k.positions cursor).any (writeOnly k.panel))

/-- Check 2, RANGE (R172). -/
def Cmd.rangeFails (k : Cmd) (cursor : BitVec 16) : Bool :=
  if k.step then decide (panelSize k.panel < k.start cursor + k.count)
  else decide (panelSize k.panel ≤ k.start cursor)

/-- Check 3, ACCESS. -/
def Cmd.accessFails (k : Cmd) (cursor : BitVec 16) : Bool :=
  if k.write then (k.positions cursor).any (fun p => !writable k.panel p)
  else (k.positions cursor).any (writeOnly k.panel)

/-- Check 4, FULL: the reply data would pass 1024 bytes. -/
def Cmd.fullFails (k : Cmd) (run : Run) : Bool :=
  !k.write && decide (Config.maxReplyData < run.data.length + 4 * k.count)

/-- The trial of a write command's elements: the state they would leave, and what was refused on the way. -/
structure Trial where
  st      : State
  state   : Bool
  invalid : Bool
  fault   : Option CommitFault

/-- One element of the trial. A refused element leaves the state as it is for the elements after it
(notes/assumptions/10.md). -/
def Trial.element (panel : Fin 8) (t : Trial) (e : Nat × Word) : Trial :=
  match writeElem panel e.1 e.2 t.st with
  | .done s => { t with st := s }
  | .stateRefused => { t with state := true }
  | .invalid f => { t with invalid := true, fault := f }

/-- The elements of a write command in element order, each against the state that the earlier ones leave
(R174). -/
def tryElements (panel : Fin 8) (elems : List (Nat × Word)) (s : State) : Trial :=
  elems.foldl (Trial.element panel) { st := s, state := false, invalid := false, fault := none }

/-- The element is a threshold of a monitor (R200). -/
def isThreshold (panel : Fin 8) (pos : Nat) : Bool := panel == 4 && (pos % 16 == 8 || pos % 16 == 9)

/-- The thresholds of every monitor that the command writes stand in their relation, on the values the
command leaves (R128, R174). -/
def thresholdsLeft (panel : Fin 8) (positions : List Nat) (s : State) : Bool :=
  positions.all (fun p =>
    !isThreshold panel p ||
      (if h : p / 16 < 8 then (s.gauge.monitors[p / 16]).settings.thresholdsOk else true))

/-- What the run of a command comes to. -/
inductive CmdOutcome where
  | refused (st : Status) (s : State)
  | ran (s : State) (data : List Byte)

/-- A write command past check 4 (R174): refused STATE or INVALID with no element written, or done whole. A
COMMIT refused at validation still sets the commit fault item (R52). -/
def Cmd.runWrite (k : Cmd) (cursor : BitVec 16) (s : State) : CmdOutcome :=
  let ps := k.positions cursor
  let t := tryElements k.panel (ps.zip k.words) s
  if t.state then .refused .state s
  else if t.invalid then
    match t.fault with
    | some f => .refused .invalid { s with classifier := { s.classifier with fault := f } }
    | none => .refused .invalid s
  else if !thresholdsLeft k.panel ps t.st then .refused .invalid s
  else .ran t.st []

/-- A read command past check 4 (R173). -/
def Cmd.runRead (k : Cmd) (cursor : BitVec 16) (s : State) : CmdOutcome :=
  let r := readAll k.panel s (k.positions cursor) s
  .ran r.2 (r.1.flatMap wordBytes)

/-- The checks in the order of R174, and the command. -/
def Cmd.exec (k : Cmd) (run : Run) (s : State) : CmdOutcome :=
  let cursor := s.link.cursors[k.panel]
  if k.parseFails cursor then .refused .parse s
  else if k.rangeFails cursor then .refused .range s
  else if k.accessFails cursor then .refused .access s
  else if k.fullFails run then .refused .full s
  else if k.write then k.runWrite cursor s
  else k.runRead cursor s

/-- A refused command stops the frame (R169, R175): the reply carries its status and its number. -/
def refuseFrame (st : Status) (run : Run) (s : State) : State :=
  buildReply { seq := run.seq, status := st, failIdx := run.nRun + 1, executed := run.nRun, data := run.data } s

/-- A command that ran: the cursor of its panel stands after it (R172), its data joins the reply (R169), and
the frame goes on. -/
def advance (k : Cmd) (cursor : BitVec 16) (run : Run) (data : List Byte) (s : State) : State :=
  goOn (updLink (fun l =>
    { l with state := .executing { run with body := k.rest, nRun := run.nRun + 1, data := run.data ++ data },
             cursors := l.cursors.set k.panel (k.endCursor cursor) k.panel.isLt }) s)

/-- One command of the frame (R173, R174, R175). -/
def runCmd (k : Cmd) (run : Run) (s : State) : State :=
  match k.exec run s with
  | .refused st s' => refuseFrame st run s'
  | .ran s' data => advance k s.link.cursors[k.panel] run data s'

/-- The row's command of the frame, when the link is EXECUTING with no wait under way and the next command of
the body is of the row. A header that the body cuts short is refused PARSE under READ_COMMAND or
REGISTER_WRITE (R171, R175, notes/assumptions/20.md). -/
def runRow (row : Row) (s : State) : State :=
  match s.link.state, s.link.wait with
  | .executing run, .none =>
    match parseCmd run.body with
    | some k => if k.isRow s.link.cursors[k.panel] row then runCmd k run s else s
    | none => if row = .readCommand ∨ row = .registerWrite then refuseFrame .parse run s else s
  | .executing _, .await _ _ => s
  | .executing _, .delay _ _ => s
  | .idle, _ => s
  | .receiving _, _ => s
  | .replyReady _, _ => s

/-! ### The thirty rows -/

/-- READ_COMMAND (R173). -/
def execReadCommand (s : State) : Host.Outcome State Fault Refusal := live (runRow .readCommand) s

/-- REGISTER_WRITE (R174). -/
def execRegisterWrite (s : State) : Host.Outcome State Fault Refusal := live (runRow .registerWrite) s

/-- SHADOW_RULE_WRITE (R48). -/
def execShadowRuleWrite (s : State) : Host.Outcome State Fault Refusal := live (runRow .shadowRuleWrite) s

/-- SHADOW_CLASS_WRITE (R48). -/
def execShadowClassWrite (s : State) : Host.Outcome State Fault Refusal := live (runRow .shadowClassWrite) s

/-- COMMIT (R52). -/
def execCommit (s : State) : Host.Outcome State Fault Refusal := live (runRow .commit) s

/-- WITHDRAW (R54). -/
def execWithdraw (s : State) : Host.Outcome State Fault Refusal := live (runRow .withdraw) s

/-- REFILL_PERIOD_WRITE (R64). -/
def execRefillPeriodWrite (s : State) : Host.Outcome State Fault Refusal := live (runRow .refillPeriodWrite) s

/-- AGE_LIMIT_WRITE (R26). -/
def execAgeLimitWrite (s : State) : Host.Outcome State Fault Refusal := live (runRow .ageLimitWrite) s

/-- PASS_RESERVE_WRITE (R23). -/
def execPassReserveWrite (s : State) : Host.Outcome State Fault Refusal := live (runRow .passReserveWrite) s

/-- POOL_CAP_WRITE (R108). -/
def execPoolCapWrite (s : State) : Host.Outcome State Fault Refusal := live (runRow .poolCapWrite) s

/-- POOL_LEVEL_WRITE (R107). -/
def execPoolLevelWrite (s : State) : Host.Outcome State Fault Refusal := live (runRow .poolLevelWrite) s

/-- SWEEP (R36). -/
def execSweep (s : State) : Host.Outcome State Fault Refusal := live (runRow .sweep) s

/-- REGULATOR_RESTART (R189). -/
def execRegulatorRestart (s : State) : Host.Outcome State Fault Refusal := live (runRow .regulatorRestart) s

/-- EVENT_FLAG_CLEAR (R186). -/
def execEventFlagClear (s : State) : Host.Outcome State Fault Refusal := live (runRow .eventFlagClear) s

/-- ENABLE_MASK_WRITE (R187). -/
def execEnableMaskWrite (s : State) : Host.Outcome State Fault Refusal := live (runRow .enableMaskWrite) s

/-- AWAIT (R177). -/
def execAwait (s : State) : Host.Outcome State Fault Refusal := live (runRow .await) s

/-- DELAY (R179). -/
def execDelay (s : State) : Host.Outcome State Fault Refusal := live (runRow .delay) s

/-- LINK_COUNTER_CLEAR (R180). -/
def execLinkCounterClear (s : State) : Host.Outcome State Fault Refusal := live (runRow .linkCounterClear) s

/-- CLASS_TALLY_CLEAR (R116). -/
def execClassTallyClear (s : State) : Host.Outcome State Fault Refusal := live (runRow .classTallyClear) s

/-- GLOBAL_TALLY_CLEAR (R116). -/
def execGlobalTallyClear (s : State) : Host.Outcome State Fault Refusal := live (runRow .globalTallyClear) s

/-- GAUGE_SETTINGS_WRITE (R125). -/
def execGaugeSettingsWrite (s : State) : Host.Outcome State Fault Refusal := live (runRow .gaugeSettingsWrite) s

/-- ACCUMULATOR_LOW_WORD_READ (R123). -/
def execAccumulatorLowWordRead (s : State) : Host.Outcome State Fault Refusal :=
  live (runRow .accumulatorLowWordRead) s

/-- ACCUMULATOR_CLEAR (R124). -/
def execAccumulatorClear (s : State) : Host.Outcome State Fault Refusal := live (runRow .accumulatorClear) s

/-- MONITOR_SETTINGS_WRITE (R139). -/
def execMonitorSettingsWrite (s : State) : Host.Outcome State Fault Refusal :=
  live (runRow .monitorSettingsWrite) s

/-- DURATION_CLEAR (R137). -/
def execDurationClear (s : State) : Host.Outcome State Fault Refusal := live (runRow .durationClear) s

/-- CAPTURE_SETTINGS_WRITE (R146). -/
def execCaptureSettingsWrite (s : State) : Host.Outcome State Fault Refusal :=
  live (runRow .captureSettingsWrite) s

/-- ARM (R149). -/
def execArm (s : State) : Host.Outcome State Fault Refusal := live (runRow .arm) s

/-- TRIGGER (R152). -/
def execTrigger (s : State) : Host.Outcome State Fault Refusal := live (runRow .trigger) s

/-- STOP (R154). -/
def execStop (s : State) : Host.Outcome State Fault Refusal := live (runRow .stop) s

/-- CAPTURE_DATA_PORT_READ (R156). -/
def execCaptureDataPortRead (s : State) : Host.Outcome State Fault Refusal := live (runRow .captureDataPortRead) s

end Sys2Proof.Machine
end

