-- ==== Sys2Proof/Machine/Regulation.lean ====
section
/-! DEFINITION. The meanings of the admission unit's and the gauge block's own events: refill boundary, release event, quiet race, gauge period end. -/

namespace Sys2Proof.Machine

/-- A refill period has passed since the schedule's last boundary or restart (R64). -/
def State.boundaryDue (s : State) : Bool :=
  decide (s.admission.refillPeriod ≤ s.elapsed s.admission.refillStart)

/-- REFILL_BOUNDARY (R65). -/
def execRefillBoundary (s : State) : Host.Outcome State Fault Refusal :=
  live (fun s => if s.boundaryDue then settle (boundary s) else s) s

/-- One release event of a running evaluation (R88). -/
def releaseEvent (s : State) : State :=
  match s.arbiter with
  | some c => release c s
  | none => endEval s

/-- RELEASE_EVENT (R88). With no evaluation running there is none. -/
def execReleaseEvent (s : State) : Host.Outcome State Fault Refusal :=
  live (fun s => if s.admission.evalRunning then settle (releaseEvent s) else s) s

/-- The class's race is enabled and its race time has reached its quiet time (R100, R101). -/
def State.raceDue (s : State) (c : ClassId) : Bool :=
  (s.cls c).active.raceEnable && decide ((s.cls c).active.quietTime.toNat ≤ (s.cls c).raceTime)

/-- The time event of a class's race: the counters restart and the class is QUIET after it; QUIET is raised
when it was ACTIVE (R100, R101). -/
def raceTimeEvent (c : ClassId) (s : State) : State :=
  raiseIf ((s.cls c).quiet == .active) .quiet
    (updCls c (fun k => { k with quiet := .quiet, raceTime := 0, raceBytes := 0 }) s)

/-- QUIET_RACE_TIME_EVENT (R100, R101). -/
def execQuietRaceTimeEvent (c : ClassId) (s : State) : Host.Outcome State Fault Refusal :=
  live (fun s => if s.raceDue c then settle (raceTimeEvent c s) else s) s

/-- The gauge is enabled and its sample period has passed since the start of the current period (R120). -/
def State.periodDue (s : State) (g : GaugeId) : Bool :=
  s.gauge.gauges[g].settings.enable &&
    decide (s.gauge.gauges[g].settings.period.toNat ≤ s.elapsed s.gauge.gauges[g].start)

/-- GAUGE_PERIOD_END (R121). -/
def execGaugePeriodEnd (g : GaugeId) (s : State) : Host.Outcome State Fault Refusal :=
  live (fun s => if s.periodDue g then settle (periodEnd g s) else s) s

end Sys2Proof.Machine
end

