-- ==== Sys2Proof/Machine/Dispatch.lean ====
section
/-! DEFINITION. exec: one arm per command, each one direct call of its meaning. -/

namespace Sys2Proof.Machine

/-- The effect of a command on everything but the queue of commands. -/
def exec (i : Instr) (s : State) : Host.Outcome State Fault Refusal :=
  match i with
  | .take r => Sys2Proof.Machine.execTake r s
  | .retry => Sys2Proof.Machine.execRetry s
  | .intakeExpiry => Sys2Proof.Machine.execIntakeExpiry s
  | .mPortTake => Sys2Proof.Machine.execMPortTake s
  | .ret tag status data => Sys2Proof.Machine.execRet tag status data s
  | .entryExpiry e => Sys2Proof.Machine.execEntryExpiry e s
  | .heldExpiry c k => Sys2Proof.Machine.execHeldExpiry c k s
  | .refillBoundary => Sys2Proof.Machine.execRefillBoundary s
  | .releaseEvent => Sys2Proof.Machine.execReleaseEvent s
  | .quietRaceTimeEvent c => Sys2Proof.Machine.execQuietRaceTimeEvent c s
  | .gaugePeriodEnd g => Sys2Proof.Machine.execGaugePeriodEnd g s
  | .timeBaseTick => Sys2Proof.Machine.execTimeBaseTick s
  | .powerOnReset => Sys2Proof.Machine.execPowerOnReset s
  | .resetRelease => Sys2Proof.Machine.execResetRelease s
  | .openerError b => Sys2Proof.Machine.execOpenerError b s
  | .frameOpener => Sys2Proof.Machine.execFrameOpener s
  | .overrun => Sys2Proof.Machine.execOverrun s
  | .truncation => Sys2Proof.Machine.execTruncation s
  | .checkFail bytes => Sys2Proof.Machine.execCheckFail bytes s
  | .repeatFrame bytes => Sys2Proof.Machine.execRepeatFrame bytes s
  | .commandFrame bytes => Sys2Proof.Machine.execCommandFrame bytes s
  | .replyFetch => Sys2Proof.Machine.execReplyFetch s
  | .fetchEnd n => Sys2Proof.Machine.execFetchEnd n s
  | .readCommand => Sys2Proof.Machine.execReadCommand s
  | .registerWrite => Sys2Proof.Machine.execRegisterWrite s
  | .shadowRuleWrite => Sys2Proof.Machine.execShadowRuleWrite s
  | .shadowClassWrite => Sys2Proof.Machine.execShadowClassWrite s
  | .commit => Sys2Proof.Machine.execCommit s
  | .withdraw => Sys2Proof.Machine.execWithdraw s
  | .refillPeriodWrite => Sys2Proof.Machine.execRefillPeriodWrite s
  | .ageLimitWrite => Sys2Proof.Machine.execAgeLimitWrite s
  | .passReserveWrite => Sys2Proof.Machine.execPassReserveWrite s
  | .poolCapWrite => Sys2Proof.Machine.execPoolCapWrite s
  | .poolLevelWrite => Sys2Proof.Machine.execPoolLevelWrite s
  | .sweep => Sys2Proof.Machine.execSweep s
  | .regulatorRestart => Sys2Proof.Machine.execRegulatorRestart s
  | .eventFlagClear => Sys2Proof.Machine.execEventFlagClear s
  | .enableMaskWrite => Sys2Proof.Machine.execEnableMaskWrite s
  | .await => Sys2Proof.Machine.execAwait s
  | .awaitLimitElapse => Sys2Proof.Machine.execAwaitLimitElapse s
  | .delay => Sys2Proof.Machine.execDelay s
  | .delayElapse => Sys2Proof.Machine.execDelayElapse s
  | .linkCounterClear => Sys2Proof.Machine.execLinkCounterClear s
  | .classTallyClear => Sys2Proof.Machine.execClassTallyClear s
  | .globalTallyClear => Sys2Proof.Machine.execGlobalTallyClear s
  | .gaugeSettingsWrite => Sys2Proof.Machine.execGaugeSettingsWrite s
  | .accumulatorLowWordRead => Sys2Proof.Machine.execAccumulatorLowWordRead s
  | .accumulatorClear => Sys2Proof.Machine.execAccumulatorClear s
  | .monitorSettingsWrite => Sys2Proof.Machine.execMonitorSettingsWrite s
  | .durationClear => Sys2Proof.Machine.execDurationClear s
  | .captureSettingsWrite => Sys2Proof.Machine.execCaptureSettingsWrite s
  | .arm => Sys2Proof.Machine.execArm s
  | .trigger => Sys2Proof.Machine.execTrigger s
  | .stop => Sys2Proof.Machine.execStop s
  | .captureDataPortRead => Sys2Proof.Machine.execCaptureDataPortRead s

end Sys2Proof.Machine
end

