-- ==== Sys2Proof/Safety.lean ====
section
/-! DEFINITION. What a well-timed run is (R183), and the invariants in whose terms claims are stated. -/

namespace Sys2Proof.Machine

/-- Some timed event of R183 is due in this microsecond. -/
def State.timedDue (s : State) : Bool :=
  s.intakeAged || s.nextHeld.isSome || s.nextEntry.isSome || s.boundaryDue ||
    (List.finRange 16).any s.raceDue || (List.finRange 8).any s.periodDue || s.awaitDue || s.delayDue

/-- The front command keeps the timing of R183: time does not advance past a timed event that is due. -/
def State.wellTimed (s : State) : Bool :=
  match s.pending with
  | .timeBaseTick :: _ => s.control.resetHeld || !s.timedDue
  | _ => true

/-- The outcome is a next state: a safe step neither stops nor is refused. -/
def nextState (o : Host.Outcome State Fault Refusal) : Option State :=
  match o with
  | .next s => some s
  | .fault _ => none
  | .refused _ => none

/-! ### What a command leaves alone -/

/-- The parts over which a frame is said: the eight blocks, what has left the part, and the model's own
fields. -/
inductive Part where
  | control
  | intake
  | classifier
  | admission
  | table
  | gauge
  | capture
  | link
  | answers
  | sentDown
  | sdo
  | freePicks
  | pending
deriving DecidableEq, Repr

/-- The part `p` is in `t` as it was in `s`. -/
def Part.same (p : Part) (s t : State) : Prop :=
  match p with
  | .control => t.control = s.control
  | .intake => t.intake = s.intake
  | .classifier => t.classifier = s.classifier
  | .admission => t.admission = s.admission
  | .table => t.table = s.table
  | .gauge => t.gauge = s.gauge
  | .capture => t.capture = s.capture
  | .link => t.link = s.link
  | .answers => t.answers = s.answers
  | .sentDown => t.sentDown = s.sentDown
  | .sdo => t.sdo = s.sdo
  | .freePicks => t.freePicks = s.freePicks
  | .pending => t.pending = s.pending

/-- From `s` to `t` nothing but the parts in `touched` has changed. -/
def unchangedBut (touched : List Part) (s t : State) : Prop :=
  ∀ p : Part, p ∉ touched → p.same s t

/-- The flags that the capture unit raises when its state goes from `a`'s to `b`'s in one event
(R152, R153). -/
def captureFlags (a b : Capture) : List Flag :=
  (if a.state = .armed ∧ b.state = .triggered then [.captureTriggered] else []) ++
    (if a.state = .triggered ∧ b.state = .done then [.captureDone] else [])

/-- The raises of `fs`, one after another. -/
def raiseAll (fs : List Flag) (s : State) : State := fs.foldl (fun s f => raise f s) s

/-- The control block of `t` is that of `s` with the flags `fs`, and those of the capture unit, raised; no
other flag, no mask and not the time base has changed. -/
def raised (fs : List Flag) (s t : State) : Prop :=
  t.control = (raiseAll (fs ++ captureFlags s.capture t.capture) s).control

/-- The events of the other blocks that can raise a flag: those of the memory path, of regulation and of the
gauges, a take at the M-port apart, which raises none. -/
def ofOtherBlocks (c : Instr) : Prop :=
  (∃ u, c = .take u) ∨ c = .retry ∨ c = .intakeExpiry ∨ (∃ i st d, c = .ret i st d) ∨
    (∃ i, c = .entryExpiry i) ∨ (∃ k n, c = .heldExpiry k n) ∨ c = .refillBoundary ∨ c = .releaseEvent ∨
    (∃ k, c = .quietRaceTimeEvent k) ∨ ∃ g, c = .gaugePeriodEnd g

/-! ### Admission and placement as relations -/

/-- The request of length `len` meets the admission conditions of class `c` (R67, R68). -/
abbrev State.admissible (s : State) (c : ClassId) (len : Nat) : Prop :=
  s.table.passReserve < s.freeEntries ∧
    ((s.cls c).active.mode = .regulated →
      (1 ≤ (s.cls c).credit ∨ ((s.cls c).active.borrow = true ∧ len ≤ s.admission.poolLevel)) ∧
      (s.cls c).outstanding < (s.cls c).active.limit.toNat)

/-- An admission of class `c` would be on the pool: the class is REGULATED and its credit is below 1
(R67). -/
def State.borrows (s : State) (c : ClassId) : Bool :=
  decide ((s.cls c).active.mode = .regulated ∧ (s.cls c).credit < 1)

/-- The table of `t` is that of `s` after `r` has taken its lowest FREE entry and the tail of the issue
queue (R21). -/
def enteredTable (r : Req) (borrowed : Bool) (s t : State) : Prop :=
  ∃ i : EntryId, s.lowestFree = some i ∧
    t.table = { s.table with entries := s.table.entries.set i (.queued r borrowed) i.isLt,
                             issueQ := s.table.issueQ ++ [i] }

/-- A class admission of `r` into class `c` (R69): its five effects, on everything but the hold queues, the
head block reasons and the arbiter. -/
def classAdmitted (c : ClassId) (r : Req) (s t : State) : Prop :=
  enteredTable r (s.borrows c) s t ∧
  (t.cls c).outstanding = (s.cls c).outstanding + 1 ∧
  (t.cls c).credit = (if (s.cls c).active.mode = .regulated ∧ 1 ≤ (s.cls c).credit
    then (s.cls c).credit - r.len.val else (s.cls c).credit) ∧
  t.admission.poolLevel = (if s.borrows c then s.admission.poolLevel - r.len.val
    else s.admission.poolLevel) ∧
  t.gauge = { s.gauge with
    tallies := updAt s.gauge.tallies c (Tallies.onAdmission r.kind r.len.val (s.borrows c)),
    gauges := mapAll (fun _ g => g.count r.traffic (g.settings.quantity.ofAdmission r.kind r.len.val))
      s.gauge.gauges } ∧
  ((t.cls c).quiet, (t.cls c).raceTime, (t.cls c).raceBytes) =
    (((s.cls c).addRace r.len.val).quiet, ((s.cls c).addRace r.len.val).raceTime,
      ((s.cls c).addRace r.len.val).raceBytes) ∧
  t.capture = s.capture.offer
    { kind := .admitted (t.cls c).credit (s.borrows c), stamp := s.control.time, body := r.body } ∧
  raised (if (s.cls c).quiet = .quiet ∧ (t.cls c).quiet = .active then [.wake] else []) s t ∧
  ((t.cls c).active, (t.cls c).shadow) = ((s.cls c).active, (s.cls c).shadow)

/-- Every class but `c` is as it was, its head block reason apart. -/
def othersButReason (c : ClassId) (s t : State) : Prop :=
  ∀ d : ClassId, d ≠ c → t.cls d = { s.cls d with reason := (t.cls d).reason }

/-- Nothing of the admission unit but the class records and the pool level has changed. -/
def admissionFrame (s t : State) : Prop :=
  t.admission = { s.admission with
    classes := t.admission.classes, poolLevel := t.admission.poolLevel,
    evalRunning := t.admission.evalRunning }

/-- The placement of a request `r` of class `c` (R71): admitted directly, held, answered BOUNCE or left
waiting with reason SLOT, by the first step whose test holds in `s`. -/
def classPlaced (c : ClassId) (r : Req) (s t : State) : Prop :=
  unchangedBut [.control, .intake, .admission, .table, .gauge, .capture, .link, .answers] s t ∧
  admissionFrame s t ∧ othersButReason c s t ∧
  if (s.cls c).queue = [] ∧ (∀ d : ClassId, (s.cls d).reason ≠ .entry) ∧ s.admissible c r.len.val then
    t.intake = .empty ∧ t.answers = s.answers ∧ classAdmitted c r s t ∧ (t.cls c).queue = [] ∧
      t.admission.evalRunning = s.admission.evalRunning ∧
      ∀ d : ClassId, (t.cls d).reason = (if s.borrows c = true ∧ (t.cls d).queue ≠ [] then t.headReason d
        else (s.cls d).reason)
  else if s.heldTotal < 128 ∧ (s.cls c).queue.length < (s.cls c).active.quota.toNat then
    t.intake = .empty ∧ t.answers = s.answers ∧ t.table = s.table ∧
      t.cls c = { s.cls c with queue := (s.cls c).queue ++ [r], reason := (t.cls c).reason } ∧
      (t.cls c).reason = (if (s.cls c).queue = [] then t.headReason c else (s.cls c).reason) ∧
      (∀ d : ClassId, d ≠ c → t.cls d = s.cls d) ∧
      t.admission.poolLevel = s.admission.poolLevel ∧
      t.admission.evalRunning = (s.admission.evalRunning || (s.cls c).queue.isEmpty) ∧
      t.gauge = { s.gauge with
        tallies := updAt s.gauge.tallies c (fun k => { k with held := k.held + 1 }) } ∧
      t.capture = s.capture.offer { kind := .held, stamp := s.control.time, body := r.body } ∧
      raised [] s t
  else if (s.cls c).active.policy = .bounce then
    t.intake = .empty ∧ t.table = s.table ∧ t.admission = s.admission ∧
      t.answers = s.answers ++ [{ source := r.source, tag := r.tag, status := .bounce, data := [] }] ∧
      t.gauge = { s.gauge with
        tallies := updAt s.gauge.tallies c (fun k => { k with bounced := k.bounced + 1 }),
        gauges := mapAll (fun _ g => g.count r.traffic g.settings.quantity.ofBounce) s.gauge.gauges } ∧
      t.capture = (s.capture.offer { kind := .bounced, stamp := s.control.time, body := r.body }).trigger
        .bounce s.control.time r.body ∧
      raised [.bounced] s t
  else
    t.intake = .waiting r .slot ∧ t.table = s.table ∧ t.admission = s.admission ∧
      t.answers = s.answers ∧ t.gauge = s.gauge ∧ t.capture = s.capture ∧ raised [.stalled] s t

/-- The placement of a PASS request `r` (R22, R75). -/
def passPlaced (r : Req) (s t : State) : Prop :=
  unchangedBut [.control, .intake, .table, .gauge, .capture, .link] s t ∧
  if 1 ≤ s.freeEntries then
    t.intake = .empty ∧ enteredTable r false s t ∧
      t.gauge = { s.gauge with
        passAdmitted := s.gauge.passAdmitted + 1,
        gauges := mapAll (fun _ g => g.count .pass (g.settings.quantity.ofAdmission r.kind r.len.val))
          s.gauge.gauges } ∧
      t.capture = s.capture.offer
        { kind := .admitted 0 false, stamp := s.control.time, body := r.body } ∧
      raised [] s t
  else
    t.intake = .waiting r .entry ∧ t.table = s.table ∧ t.gauge = s.gauge ∧ t.capture = s.capture ∧
      raised [.stalled] s t

/-- What every EXPIRED answer does besides what it does to the place where the request stood: the answer,
the flag, the tally of a class, the record and then the trigger source (R11, R30, R33, R92). -/
def expiredFrom (stood : ExpiredAt) (more : List Flag) (r : Req) (s t : State) : Prop :=
  t.answers = s.answers ++ [{ source := r.source, tag := r.tag, status := .expired, data := [] }] ∧
  t.gauge = (match r.traffic with
    | .cls c => { s.gauge with
        tallies := updAt s.gauge.tallies c (fun k => { k with expired := k.expired + 1 }) }
    | .pass => s.gauge) ∧
  t.capture = (s.capture.offer
    { kind := .expired stood, stamp := s.control.time, body := r.body }).trigger .expired
      s.control.time r.body ∧
  raised (.expired :: more) s t

/-- The requests that `aged` picks among those that can expire, each with where it stands: waiting in the
intake register, held, and QUEUED or ISSUED in the table (R11, R26, R92). -/
def State.standingAged (s : State) (aged : Req → Bool) : List (Req × ExpiredAt) :=
  (match s.intake with
    | .waiting r _ => if aged r then [(r, .intake)] else []
    | .empty => []) ++
  (List.finRange 16).flatMap (fun c => ((s.cls c).queue.filter aged).map (fun r => (r, .held))) ++
  (List.finRange 64).flatMap (fun i =>
    match s.table.entries[i] with
    | .queued r _ => if aged r then [(r, .queued)] else []
    | .issued r _ => if aged r then [(r, .issued)] else []
    | .abandoned _ _ => []
    | .free => [])

/-- The notices that one expiry gives the intake (R94, counted as notes/assumptions/5.md says): one for a slot
that comes free, one for an entry that comes free, one for a fall of a class's outstanding count. -/
def expiryNotices (x : Req × ExpiredAt) : Nat :=
  match x.2, x.1.traffic with
  | .intake, _ => 0
  | .held, _ => 1
  | .queued, .cls _ => 2
  | .queued, .pass => 1
  | .issued, .cls _ => 1
  | .issued, .pass => 0

/-! ### Commands of the running frame -/

/-- The link runs in `s` a frame whose next command is `k`, and nothing keeps it from running. -/
structure NextCommand (s : State) (run : Run) (k : Cmd) : Prop where
  released : s.control.resetHeld = false
  executing : s.link.state = .executing run
  noWait : s.link.wait = .none
  parsed : parseCmd run.body = some k

/-- The next command is whole and writes the one value `v` to position `pos` of panel `panel`. -/
structure NextWrite (s : State) (run : Run) (k : Cmd) (panel : Fin 8) (pos : Nat) (v : Word) : Prop where
  next : NextCommand s run k
  write : k.write = true
  whole : k.whole = true
  onPanel : k.panel = panel
  count : k.count = 1
  start : k.start s.link.cursors[panel] = pos
  words : k.words = [v]

/-- The next command is whole and reads the one element at position `pos` of panel `panel`, with room for it
in the reply. -/
structure NextRead (s : State) (run : Run) (k : Cmd) (panel : Fin 8) (pos : Nat) : Prop where
  next : NextCommand s run k
  read : k.write = false
  whole : k.whole = true
  onPanel : k.panel = panel
  count : k.count = 1
  start : k.start s.link.cursors[panel] = pos
  room : run.data.length + 4 ≤ 1024

/-- The service link of `t` is that of `s` after its command `k` has run with the reply data `data`: the
cursor stands after it, and the frame goes on with the rest, or its OK reply is stored and kept when
nothing is left of it and no wait has begun (R169, R172). The await settings and the result stay. -/
def commandRan (k : Cmd) (run : Run) (data : List Byte) (s t : State) : Prop :=
  t.link.cursors = s.link.cursors.set k.panel (k.endCursor s.link.cursors[k.panel]) k.panel.isLt ∧
  (if k.rest = [] ∧ t.link.wait = .none then
    t.link.state = .replyReady false ∧
      t.link.stored = some { seq := run.seq, status := .ok, failIdx := 0, executed := run.nRun + 1,
                             data := run.data ++ data } ∧
      t.link.kept = t.link.stored
  else
    t.link.state = .executing { run with body := k.rest, nRun := run.nRun + 1, data := run.data ++ data } ∧
      t.link.stored = s.link.stored ∧ t.link.kept = s.link.kept)

/-- The level of SEL and the link's counters, wait and await items are as they were. -/
def waitFrame (s t : State) : Prop :=
  t.link.sel = s.link.sel ∧ t.link.counters = s.link.counters ∧ t.link.wait = s.link.wait ∧
    t.link.awaitMask1 = s.link.awaitMask1 ∧ t.link.awaitLimit = s.link.awaitLimit ∧
    t.link.awaitTime = s.link.awaitTime ∧ t.link.awaitWay = s.link.awaitWay

/-- The command of the table that the row of a link command names. -/
def Row.instr : Row → Instr
  | .readCommand => .readCommand
  | .registerWrite => .registerWrite
  | .shadowRuleWrite => .shadowRuleWrite
  | .shadowClassWrite => .shadowClassWrite
  | .commit => .commit
  | .withdraw => .withdraw
  | .refillPeriodWrite => .refillPeriodWrite
  | .ageLimitWrite => .ageLimitWrite
  | .passReserveWrite => .passReserveWrite
  | .poolCapWrite => .poolCapWrite
  | .poolLevelWrite => .poolLevelWrite
  | .sweep => .sweep
  | .regulatorRestart => .regulatorRestart
  | .eventFlagClear => .eventFlagClear
  | .enableMaskWrite => .enableMaskWrite
  | .await => .await
  | .delay => .delay
  | .linkCounterClear => .linkCounterClear
  | .classTallyClear => .classTallyClear
  | .globalTallyClear => .globalTallyClear
  | .gaugeSettingsWrite => .gaugeSettingsWrite
  | .accumulatorLowWordRead => .accumulatorLowWordRead
  | .accumulatorClear => .accumulatorClear
  | .monitorSettingsWrite => .monitorSettingsWrite
  | .durationClear => .durationClear
  | .captureSettingsWrite => .captureSettingsWrite
  | .arm => .arm
  | .trigger => .trigger
  | .stop => .stop
  | .captureDataPortRead => .captureDataPortRead

/-- The state after writing the elements in order, each against the state the earlier ones leave; none when
one of them is refused (R173, R174). -/
def writeAll (panel : Fin 8) : List (Nat × Word) → State → Option State
  | [], s => some s
  | e :: es, s =>
    match writeElem panel e.1 e.2 s with
    | .done s' => writeAll panel es s'
    | .stateRefused => none
    | .invalid _ => none

/-- The frame has stopped at its command with status `st` (R169, R175): the reply is stored and kept with
the data of the commands before it, and the cursors stay. -/
def frameRefused (st : Status) (run : Run) (s t : State) : Prop :=
  t.link = { s.link with
    state := .replyReady false, wait := .none,
    stored := some { seq := run.seq, status := st, failIdx := run.nRun + 1, executed := run.nRun,
                     data := run.data },
    kept := some { seq := run.seq, status := st, failIdx := run.nRun + 1, executed := run.nRun,
                   data := run.data } }

/-- The wait of the running frame has ended, with the await result `micros` and `way`: the frame goes on
with its next command, or with none left its OK reply is stored and kept (R169, R177, R179). -/
def waitEnded (run : Run) (micros : Nat) (way : WaitWay) (s t : State) : Prop :=
  t.link =
    if run.body = [] then
      { s.link with
        wait := .none, awaitTime := micros, awaitWay := way, state := .replyReady false,
        stored := some { seq := run.seq, status := .ok, failIdx := 0, executed := run.nRun,
                         data := run.data },
        kept := some { seq := run.seq, status := .ok, failIdx := 0, executed := run.nRun,
                       data := run.data } }
    else { s.link with wait := .none, awaitTime := micros, awaitWay := way }

/-! ### Invariants -/

/-- The entries in QUEUED or ISSUED that carry class `c` (R62). -/
def Entry.countsFor (c : ClassId) : Entry → Bool
  | .queued r _ => r.traffic == .cls c
  | .issued r _ => r.traffic == .cls c
  | .abandoned _ _ => false
  | .free => false

/-- The issue queue holds each QUEUED entry exactly once and no entry in any other state (R20). -/
def State.issueQOk (s : State) : Prop :=
  s.table.issueQ.Nodup ∧ ∀ i : EntryId, i ∈ s.table.issueQ ↔ s.table.entries[i].isQueued = true

/-- The outstanding count of every class is the number of QUEUED or ISSUED entries that carry it (R62). -/
def State.outstandingOk (s : State) : Prop :=
  ∀ c : ClassId, (s.cls c).outstanding = s.table.entries.toList.countP (Entry.countsFor c)

/-- Every held request stands in the queue of the class it was classified into (R82). -/
def State.queuesOk (s : State) : Prop :=
  ∀ c : ClassId, ∀ r ∈ (s.cls c).queue, r.traffic = .cls c

/-- The credit of every class lies between -255 and the cap of its active settings (R61). -/
def State.creditOk (s : State) : Prop :=
  ∀ c : ClassId, -255 ≤ (s.cls c).credit ∧ (s.cls c).credit ≤ ((s.cls c).active.cap.toNat : Int)

/-- The pool level lies between 0 and the pool cap, and the cap is a 16-bit number (R106). -/
def State.poolOk (s : State) : Prop :=
  s.admission.poolLevel ≤ s.admission.poolCap ∧ s.admission.poolCap ≤ 65535

/-- No more requests are held than there are hold slots (R81). -/
def State.holdOk (s : State) : Prop := s.heldTotal ≤ Config.holdSlots

/-- The live settings of the control panel lie in their ranges (R23, R26, R64, R177). -/
def State.settingsOk (s : State) : Prop :=
  1 ≤ s.admission.refillPeriod ∧ s.admission.refillPeriod ≤ 4096 ∧ s.table.ageLimit ≤ 65535 ∧
    s.table.passReserve ≤ 16 ∧ s.link.awaitLimit ≤ 65535

/-- The records of a buffer that are MARK records. -/
def Rec.isMark (r : Rec) : Bool :=
  match r.kind with
  | .mark _ => true
  | .held => false
  | .admitted _ _ => false
  | .completed _ _ => false
  | .expired _ => false
  | .bounced => false
  | .denied => false
  | .late => false

/-- The capture buffer and its counts (R142, R148): the settings in range; the ring never above K; in every
state the pre-trigger, MARK and post records together; at most one MARK. -/
def Capture.ok (c : Capture) : Prop :=
  c.settings.preCount ≤ 511 ∧ 1 ≤ c.settings.postCount ∧ c.settings.postCount ≤ 511 ∧
    c.buffer.length ≤ Config.captureRecords ∧ c.buffer.countP Rec.isMark ≤ 1 ∧
    match c.state with
    | .idle => c.buffer = [] ∧ c.wordPos = 0
    | .armed => c.buffer.countP Rec.isMark = 0 ∧ c.preHeld = c.buffer.length ∧
        c.buffer.length ≤ c.settings.preCount ∧ c.wordPos = 0 ∧
        c.settings.preCount + c.settings.postCount + 1 ≤ Config.captureRecords
    | .triggered => c.preHeld ≤ c.settings.preCount ∧ c.postAppended < c.settings.postCount ∧
        c.buffer.length = c.preHeld + 1 + c.postAppended ∧ c.wordPos = 0 ∧
        c.settings.preCount + c.settings.postCount + 1 ≤ Config.captureRecords
    | .done => True

/-- While an AWAIT runs no flag of its masks is set, the link is EXECUTING, and the limit is not 0 (R177,
R178). -/
def State.waitOk (s : State) : Prop :=
  match s.link.wait with
  | .await m0 _ => maskedFlagSet m0 s.link.awaitMask1 s = false ∧ s.link.awaitLimit ≠ 0 ∧
      ∃ run, s.link.state = .executing run
  | .delay n _ => n ≠ 0 ∧ n ≤ 65535 ∧ ∃ run, s.link.state = .executing run
  | .none => True

/-- What is in force has passed validation: the active rules and class settings, and the shadow set while a
commit is pending (R43, R44, R52, R59). -/
def State.validOk (s : State) : Prop :=
  (s.classifier.commitPending = true → s.validate = .none) ∧
    (∀ i : Fin 48, (s.classifier.active.rules[i]).check = none) ∧
    ∀ c : ClassId, ((s.cls c).active).check = none

/-- A class whose race is disabled is ACTIVE with its race counters at 0 (R99). -/
def State.raceOk (s : State) : Prop :=
  ∀ c : ClassId, (s.cls c).active.raceEnable = false →
    (s.cls c).quiet = .active ∧ (s.cls c).raceTime = 0 ∧ (s.cls c).raceBytes = 0

/-- A sample period is never 0 (R118), and a disabled gauge has counted nothing (R126). -/
def State.gaugesOk (s : State) : Prop :=
  ∀ g : GaugeId, (s.gauge.gauges[g]).settings.period ≠ 0 ∧
    ((s.gauge.gauges[g]).settings.enable = false → (s.gauge.gauges[g]).a = 0 ∧ (s.gauge.gauges[g]).b = 0)

/-- The settings of a monitor are in their ranges (R128). -/
def MonSettings.ok (m : MonSettings) : Prop :=
  m.lower.toInt < m.upper.toInt ∧ 1 ≤ m.window.toNat ∧ m.nh.toNat ≤ 254 ∧ m.nl.toNat ≤ 254 ∧
    1 ≤ m.mh.toNat ∧ 1 ≤ m.ml.toNat ∧ 1 ≤ m.mc.toNat

/-- A monitor's settings, counts, runs and durations are in their ranges (R128, R129), no sample of its
window is counted twice (R130), and in NORMAL its clear run is 0 (R132). -/
def Monitor.ok (m : Monitor) : Prop :=
  m.settings.ok ∧ m.live.pos < m.settings.window.toNat ∧ m.live.high + m.live.low ≤ m.live.pos ∧
    m.live.highRun ≤ 255 ∧ m.live.lowRun ≤ 255 ∧ m.live.clearRun ≤ 255 ∧
    m.overWindows ≤ 16777215 ∧ m.underWindows ≤ 16777215 ∧
    (m.live.state = .normal → m.live.clearRun = 0)

/-- Every monitor is in its ranges. -/
def State.monitorsOk (s : State) : Prop := ∀ g : GaugeId, (s.gauge.monitors[g]).ok

/-- While RESET is held, and while the link ignores the SEL-low period in which it was released, the link is
IDLE and waits for nothing (R162, R181). -/
def State.silentOk (s : State) : Prop :=
  s.control.resetHeld = true ∨ s.link.sel = .ignored → s.link.state = .idle ∧ s.link.wait = .none

/-- A reply waits to be fetched whenever the link is in REPLY_READY, or would go back there (R164). -/
def Link.replyOk (l : Link) : Prop :=
  match l.state with
  | .replyReady _ => l.stored ≠ none
  | .receiving fromReady => fromReady = true → l.stored ≠ none
  | .idle => True
  | .executing _ => True

end Sys2Proof.Machine
end

