-- ==== Sys2Proof/Certificates/Slice0/Obligations.lean ====
section
/-! DEFINITION. The statements for the provers: what each command does and leaves alone, what every step keeps, and what frames and elements spell. -/

open Sys2Proof Sys2Proof.Machine

/-! ### The step, the RESET input and time -/

/-- A step runs the command at the front of the queue on the state with the queue's rest. -/
def Obligations.StepRunsFrontCommand : Prop :=
  ∀ (c : Instr) (s : State), step { s with pending := c :: s.pending } = exec c s

/-- While RESET is held no well-formed command but a reset or its release changes anything, the input line
SEL apart, which falls where a transfer begins and rises where one ends (notes/assumptions/18.md). That a
command given then, a TAKE too, is used up and not kept for the release is the model's choice
(notes/assumptions/2.md, notes/assumptions/3.md). -/
def Obligations.HeldResetTakesNothing : Prop :=
  ∀ (c : Instr) (s : State), s.control.resetHeld = true → c.wf = true → c ≠ .powerOnReset →
    c ≠ .resetRelease →
    (let falls : Prop := (∃ b, c = .openerError b) ∨ c = .frameOpener ∨ c = .overrun ∨ c = .replyFetch
    let rises : Prop := c = .truncation ∨ (∃ n, c = .fetchEnd n) ∨
      ∃ bytes, c = .checkFail bytes ∨ c = .repeatFrame bytes ∨ c = .commandFrame bytes
    (falls → exec c s = .next { s with link := { s.link with sel := .low } }) ∧
    (rises → exec c s = .next { s with link := { s.link with sel := .high } }) ∧
    (¬ falls → ¬ rises → exec c s = .next s))

/-- No command stops the part: every command answers a next state in every state, but for a TAKE of a term
that no U-port message spells, which the model refuses by name (notes/assumptions/14.md). -/
def Obligations.OnlyMalformedTakeIsRefused : Prop :=
  ∀ (c : Instr) (s : State),
    (∀ u : UReq, c = .take u → u.wf = false → exec c s = .refused .malformedRequest) ∧
    ((∀ u : UReq, c = .take u → u.wf = true) → ∃ t, exec c s = .next t)

/-- POWER_ON_RESET puts every block at its power-on value with RESET held; RESET_RELEASE starts the time
base and the refill schedule from 0, and when SEL is low the link ignores that period from then on;
TIME_BASE_TICK: the stamp rises by 1 modulo 2^32, the race time of every class with an enabled race with it,
and nothing else changes. The model's choices in it: that a release without a held reset changes nothing
(notes/assumptions/2.md); that a power-on reset keeps the level of SEL, the logs of what has left the part
and the commands that wait (notes/assumptions/18.md, notes/assumptions/8.md, notes/assumptions/22.md); and,
among the reset values, no notice outstanding and a gauge's start stamp 0 (notes/assumptions/5.md,
notes/assumptions/12.md). -/
def Obligations.ResetReleaseAndTick : Prop :=
  (∀ s : State,
    (∃ t, exec .powerOnReset s = .next t ∧ t.control.resetHeld = true ∧ t.control.time = 0 ∧
      t.control.flags0 = 0 ∧ t.control.flags1 = 0 ∧ t.control.mask0 = 0 ∧ t.control.mask1 = 0 ∧
      t.alert = false ∧ t.rdy = false ∧ t.intake = .empty ∧ t.classifier = Classifier.reset ∧
      t.admission = Admission.reset ∧ t.table = Table.reset ∧ t.gauge = GaugeBlock.reset ∧
      t.capture = Capture.reset ∧
      t.link = { Link.reset with sel := if s.link.sel = .high then .high else .low } ∧
      unchangedBut [.control, .intake, .classifier, .admission, .table, .gauge, .capture, .link] s t) ∧
    (s.control.resetHeld = true →
      exec .resetRelease s = .next { s with
        control := { s.control with resetHeld := false, time := 0 },
        admission := { s.admission with refillStart := 0 },
        link := { s.link with sel := if s.link.sel = .high then .high else .ignored } }) ∧
    (s.control.resetHeld = false → exec .resetRelease s = .next s)) ∧
  (∀ s : State, s.control.resetHeld = false →
    ∃ t, exec .timeBaseTick s = .next t ∧ t.control = { s.control with time := s.control.time + 1 } ∧
      (∀ c : ClassId, t.cls c = if (s.cls c).active.raceEnable = true
        then { s.cls c with raceTime := (s.cls c).raceTime + 1 } else s.cls c) ∧
      t.admission = { s.admission with classes := t.admission.classes } ∧
      unchangedBut [.control, .admission] s t)

/-- What elements of the rules, the class settings, the hold pool and the arbiter, the gauges and monitors,
the capture settings, the refill period and the table view read after power-on reset. -/
def Obligations.PowerOnElementValues : Prop :=
  (∀ r : Fin 48, readElem 1 (4 * r.val) State.reset = 6#32 ∧
    readElem 1 (512 + 4 * r.val) State.reset = 6#32) ∧
  readElem 1 192 State.reset = 16#32 ∧ readElem 1 704 State.reset = 16#32 ∧
  (∀ c : Fin 16, readElem 2 (4 * c.val + 1) State.reset = 0x000F0040#32 ∧
    readElem 2 (4 * c.val + 2) State.reset = 1000#32 ∧
    readElem 2 (512 + 4 * c.val + 3) State.reset = 4096#32) ∧
  readElem 3 512 State.reset = 128#32 ∧ readElem 3 514 State.reset = 0x0000FFFF#32 ∧
  (∀ g : Fin 8, readElem 4 (16 * g.val) State.reset = 0x82121200#32 ∧
    readElem 4 (16 * g.val + 6) State.reset = 0x00001000#32 ∧
    readElem 4 (16 * g.val + 7) State.reset = 0x00040404#32 ∧
    readElem 4 (16 * g.val + 8) State.reset = 0x7FFFFFFF#32 ∧
    readElem 4 (16 * g.val + 9) State.reset = 0x80000000#32) ∧
  [0, 1, 2, 3, 4].map (fun p => readElem 5 p State.reset) = [256#32, 255#32, 0x7F#32, 0x1FFFF#32, 0#32] ∧
  readElem 6 10 State.reset = 100#32 ∧
  (∀ i : Fin 64, readElem 7 (8 * i.val) State.reset = 0x007F0000#32) ∧
  [512, 513, 514, 515].map (fun p => readElem 7 p State.reset) = [64#32, 0#32, 0#32, 0#32]

/-! ### Classification -/

/-- A request passes a rule when the rule is valid and the source, address, kind and length tests pass; the
first matching rule in position order gives the result and the mark; with none, the default result with the
mark clear. -/
def Obligations.FirstMatchingRuleClassifies : Prop :=
  (∀ (k : Rule) (u : UReq), k.matches u = true ↔
    k.valid = true ∧ (∀ j < 8, k.srcMask.getLsbD j = true → u.source.getLsbD j = k.srcValue.getLsbD j) ∧
    k.basePage.toNat ≤ u.addr.toNat / 4096 ∧ u.addr.toNat / 4096 ≤ k.limitPage.toNat ∧
    (u.kind = .read → k.kindRead = true) ∧ (u.kind = .write → k.kindWrite = true) ∧
    (k.lenPresent = true → k.lenMin1.toNat + 1 ≤ u.len.val ∧ u.len.val ≤ k.lenMax1.toNat + 1)) ∧
  (∀ (b : Bank) (u : UReq),
    (∀ i : Fin 48, (b.rules[i]).matches u = true → (∀ j : Fin 48, j < i → (b.rules[j]).matches u = false) →
      b.classify u = ((b.rules[i]).result, (b.rules[i]).mark)) ∧
    ((∀ i : Fin 48, (b.rules[i]).matches u = false) → b.classify u = (b.dflt, false)))

/-! ### The intake -/

/-- A take of a request that the active bank denies: answered DENIED, tallied, flagged and offered for
capture with class NONE, and nothing else. A take of a PASS request: admitted into the lowest FREE entry, or
left waiting with reason ENTRY. -/
def Obligations.TakeDeniedAndTakePass : Prop :=
  (∀ (u : UReq) (m : Bool) (s : State), s.control.resetHeld = false → u.wf = true → s.intake = .empty →
    s.classifier.active.classify u = (.deny, m) →
    ∃ t, exec (.take u) s = .next t ∧
      t.answers = s.answers ++ [{ source := u.source, tag := u.tag, status := .denied, data := [] }] ∧
      t.gauge = { s.gauge with denied := s.gauge.denied + 1 } ∧
      t.capture = s.capture.offer { kind := .denied, stamp := s.control.time, body :=
        { cls := none, source := u.source, tag := u.tag, kind := u.kind, addr := u.addr,
          len := u.len.val, epoch := s.classifier.epoch, mark := m } } ∧
      raised [.denied] s t ∧ unchangedBut [.control, .gauge, .capture, .link, .answers] s t) ∧
  (∀ (u : UReq) (m : Bool) (s : State), s.control.resetHeld = false → u.wf = true → s.intake = .empty →
    s.classifier.active.classify u = (.pass, m) →
    ∃ t, exec (.take u) s = .next t ∧
      passPlaced
        { source := u.source, tag := u.tag, kind := u.kind, addr := u.addr, len := u.len, data := u.data,
          stamp := s.control.time, traffic := .pass, mark := m, epoch := s.classifier.epoch } s t)

/-- A take of a class request: stamped, tallied as an arrival, and placed by R71. Beside it, what the words
of every placement count: an admission adds 1 to the class's admissions, its length to the bytes of its kind
and, when borrowed, to the borrowed bytes; an enabled gauge adds its quantity to each count whose input
takes the traffic, up to 2^32 - 1, and a disabled one counts nothing; an input takes one class, PASS, or all
traffic; and what an admission and a BOUNCE answer add in each quantity. That a direct borrowed admission
sets the reasons of the heads also while an evaluation runs is the model's reading
(notes/assumptions/11.md). -/
def Obligations.TakePlacesClassRequest : Prop :=
  (∀ (u : UReq) (c : ClassId) (m : Bool) (s : State), s.control.resetHeld = false → u.wf = true →
    s.intake = .empty → s.classifier.active.classify u = (.cls c, m) →
    ∃ t, exec (.take u) s = .next t ∧
      classPlaced c
        { source := u.source, tag := u.tag, kind := u.kind, addr := u.addr, len := u.len, data := u.data,
          stamp := s.control.time, traffic := .cls c, mark := m, epoch := s.classifier.epoch }
        { s with gauge := { s.gauge with
          tallies := updAt s.gauge.tallies c (fun k => { k with arrivals := k.arrivals + 1 }) } } t) ∧
  (∀ (k : Tallies) (len : Nat) (borrowed : Bool),
    k.onAdmission .read len borrowed = { k with
      admitted := k.admitted + 1, readBytes := k.readBytes + BitVec.ofNat 32 len,
      borrowedBytes := k.borrowedBytes + BitVec.ofNat 32 (if borrowed = true then len else 0) } ∧
    k.onAdmission .write len borrowed = { k with
      admitted := k.admitted + 1, writeBytes := k.writeBytes + BitVec.ofNat 32 len,
      borrowedBytes := k.borrowedBytes + BitVec.ofNat 32 (if borrowed = true then len else 0) }) ∧
  (∀ (g : Gauge) (t : Traffic) (n : Nat),
    (g.settings.enable = false → g.count t n = g) ∧
    (g.settings.enable = true → g.count t n = { g with
      a := if g.settings.inA.takes t = true then min (g.a + n) 4294967295 else g.a,
      b := if g.settings.inB.takes t = true then min (g.b + n) 4294967295 else g.b })) ∧
  (∀ (i : Input) (t : Traffic), i.takes t = true ↔
    i = .all ∨ (i = .pass ∧ t = .pass) ∨ ∃ c : ClassId, i = .cls c ∧ t = .cls c) ∧
  ∀ (kind : ReqKind) (len : Nat),
    [Quantity.readBytes, .writeBytes, .allBytes, .admissions, .bounces, .heldLevel].map
      (fun q => (q.ofAdmission kind len, q.ofBounce)) =
        [(if kind = .read then len else 0, 0), (if kind = .write then len else 0, 0), (len, 0), (1, 0),
          (0, 1), (0, 0)]

/-- While the register is WAITING the U-port takes no request: it stays at the interconnect (that the
command is used up is the model's choice, notes/assumptions/3.md). INTAKE_EXPIRY: the waiting request whose
age has reached a nonzero limit is answered EXPIRED and the register becomes EMPTY; an expiry that is not
due changes nothing (notes/assumptions/1.md, notes/assumptions/15.md). -/
def Obligations.WaitingIntake : Prop :=
  (∀ (u : UReq) (r : Req) (w : WaitReason) (s : State), s.waitOk → u.wf = true → s.intake = .waiting r w →
    exec (.take u) s = .next s) ∧
  (∀ (r : Req) (w : WaitReason) (s : State), s.control.resetHeld = false → s.intake = .waiting r w →
    (s.table.ageLimit ≠ 0 → s.table.ageLimit ≤ (s.control.time - r.stamp).toNat →
      ∃ t, exec .intakeExpiry s = .next t ∧ t.intake = .empty ∧ expiredFrom .intake [] r s t ∧
        unchangedBut [.control, .intake, .gauge, .capture, .link, .answers] s t) ∧
    (s.table.ageLimit = 0 ∨ (s.control.time - r.stamp).toNat < s.table.ageLimit →
      exec .intakeExpiry s = .next s))

/-- A re-try on a notice places the waiting request again with the classification it carries; with the
register EMPTY it does nothing else, and with no notice it does nothing at all. That a notice is spent by
its re-try, and that there is none without a notice, is how the model counts notices
(notes/assumptions/5.md); that a direct borrowed admission sets the reasons of the heads also while an
evaluation runs is its reading (notes/assumptions/11.md). -/
def Obligations.RetryPlacesWaitingRequest : Prop :=
  (∀ s : State, s.control.resetHeld = false → s.waitOk → s.admission.retryNotices = 0 →
    exec .retry s = .next s) ∧
  ∀ (n : Nat) (s : State), s.control.resetHeld = false → s.admission.retryNotices = n + 1 →
    (∀ (c : ClassId) (r : Req) (w : WaitReason), s.intake = .waiting r w → r.traffic = .cls c →
      ∃ t, exec .retry s = .next t ∧
        classPlaced c r { s with admission := { s.admission with retryNotices := n } } t) ∧
    (∀ (r : Req) (w : WaitReason), s.intake = .waiting r w → r.traffic = .pass →
      ∃ t, exec .retry s = .next t ∧
        passPlaced r { s with admission := { s.admission with retryNotices := n } } t) ∧
    (s.waitOk → s.intake = .empty →
      exec .retry s = .next { s with admission := { s.admission with retryNotices := n } })

/-! ### The transaction table -/

/-- M_PORT_TAKE takes exactly the offered request: the head goes to ISSUED without its write data and
leaves the issue queue; with the queue empty nothing is offered and nothing taken. -/
def Obligations.MPortTakeIssuesOfferedHead : Prop :=
  ∀ s : State, s.control.resetHeld = false →
    (∀ (i : EntryId) (rest : List EntryId) (r : Req) (b : Bool), s.table.issueQ = i :: rest →
      s.table.entries[i] = .queued r b →
      s.offer = some { tag := i, source := r.source, kind := r.kind, addr := r.addr, len := r.len,
                       data := r.data } ∧
      exec .mPortTake s = .next { s with
        table := { s.table with
          entries := s.table.entries.set i (.issued { r with data := [] } b) i.isLt, issueQ := rest },
        sentDown := s.sentDown ++ [{ tag := i, source := r.source, kind := r.kind, addr := r.addr,
                                     len := r.len, data := r.data }] }) ∧
    (s.table.issueQ = [] → s.offer = none ∧ exec .mPortTake s = .next s)

/-- A return for an ISSUED entry: answered DONE or FAULT, tallied with its latency, captured, and the entry
freed; the class has one fewer outstanding and release evaluation runs. -/
def Obligations.ReturnCompletesIssuedEntry : Prop :=
  ∀ (i : EntryId) (st : RetStatus) (d : List Byte) (r : Req) (b : Bool) (s : State),
    s.control.resetHeld = false → s.table.entries[i] = .issued r b →
    ∃ t, exec (.ret i st d) s = .next t ∧
      t.answers = s.answers ++ [
        { source := r.source, tag := r.tag,
          status := (match st with | .ok => .done | .fault => .fault),
          data := if st = .ok ∧ r.kind = .read then d else [] }] ∧
      t.table = { s.table with entries := s.table.entries.set i .free i.isLt } ∧
      (∀ c : ClassId, t.cls c = if r.traffic = .cls c
        then { s.cls c with outstanding := (s.cls c).outstanding - 1 } else s.cls c) ∧
      t.admission = { s.admission with classes := t.admission.classes, evalRunning := true,
                                       retryNotices := t.admission.retryNotices } ∧
      s.admission.retryNotices < t.admission.retryNotices ∧
      t.gauge = (match r.traffic with
        | .cls c => { s.gauge with tallies := updAt s.gauge.tallies c (fun k =>
            { k with completedOk := if st = .ok then k.completedOk + 1 else k.completedOk,
                     completedFault := if st = .fault then k.completedFault + 1 else k.completedFault,
                     latencySum := k.latencySum + (s.control.time - r.stamp),
                     latencyMax := if k.latencyMax < s.control.time - r.stamp
                       then s.control.time - r.stamp else k.latencyMax }) }
        | .pass => { s.gauge with passCompleted := s.gauge.passCompleted + 1 }) ∧
      t.capture = (let c1 := s.capture.offer { kind := .completed (s.control.time - r.stamp) (st == .fault),
                                               stamp := s.control.time, body := r.body }
        if st = .fault then c1.trigger .fault s.control.time r.body else c1) ∧
      raised (if st = .fault then [.fault] else []) s t ∧
      unchangedBut [.control, .admission, .table, .gauge, .capture, .link, .answers] s t

/-- A return for an ABANDONED entry is dropped as late and frees it; one for a FREE or QUEUED entry is an
orphan, counted, and changes no entry. Neither is answered. -/
def Obligations.LateAndOrphanReturns : Prop :=
  ∀ (i : EntryId) (st : RetStatus) (d : List Byte) (s : State), s.control.resetHeld = false →
    (∀ (r : Req) (b : Bool), s.table.entries[i] = .abandoned r b →
      ∃ t, exec (.ret i st d) s = .next t ∧
        t.table = { s.table with entries := s.table.entries.set i .free i.isLt } ∧
        t.admission = { s.admission with evalRunning := true,
                                         retryNotices := s.admission.retryNotices + 1 } ∧
        t.gauge = (match r.traffic with
          | .cls c => { s.gauge with
              tallies := updAt s.gauge.tallies c (fun k => { k with late := k.late + 1 }) }
          | .pass => s.gauge) ∧
        t.capture = s.capture.offer { kind := .late, stamp := s.control.time, body := r.body } ∧
        raised [.late] s t ∧ unchangedBut [.control, .admission, .table, .gauge, .capture, .link] s t) ∧
    ((s.table.entries[i]).isIssued = false → (s.table.entries[i]).isAbandoned = false →
      ∃ t, exec (.ret i st d) s = .next t ∧
        t.gauge = { s.gauge with orphans := s.gauge.orphans + 1 } ∧ raised [.orphan] s t ∧
        unchangedBut [.control, .gauge, .link] s t)

/-- ENTRY_EXPIRY: a QUEUED entry whose age has reached the limit is freed and leaves the issue queue, an
ISSUED one is ABANDONED, and both are answered EXPIRED; for any other entry nothing is due and nothing
changes (notes/assumptions/1.md, notes/assumptions/15.md). -/
def Obligations.EntryExpiryFreesOrAbandons : Prop :=
  ∀ (i : EntryId) (s : State), s.control.resetHeld = false →
    (∀ (r : Req) (b : Bool), s.table.entries[i] = .queued r b → s.aged r = true →
      ∃ t, exec (.entryExpiry i) s = .next t ∧
        t.table = { s.table with entries := s.table.entries.set i .free i.isLt,
                                 issueQ := s.table.issueQ.filter (fun j => j != i) } ∧
        (∀ c : ClassId, t.cls c = if r.traffic = .cls c
          then { s.cls c with outstanding := (s.cls c).outstanding - 1 } else s.cls c) ∧
        t.admission = { s.admission with classes := t.admission.classes, evalRunning := true,
                                         retryNotices := t.admission.retryNotices } ∧
        s.admission.retryNotices < t.admission.retryNotices ∧
        expiredFrom .queued [] r s t ∧
        unchangedBut [.control, .admission, .table, .gauge, .capture, .link, .answers] s t) ∧
    (∀ (r : Req) (b : Bool), s.table.entries[i] = .issued r b → s.aged r = true →
      ∃ t, exec (.entryExpiry i) s = .next t ∧
        t.table = { s.table with entries := s.table.entries.set i (.abandoned r b) i.isLt } ∧
        (∀ c : ClassId, t.cls c = if r.traffic = .cls c
          then { s.cls c with outstanding := (s.cls c).outstanding - 1 } else s.cls c) ∧
        t.admission = { s.admission with
          classes := t.admission.classes,
          evalRunning := if r.traffic = .pass then s.admission.evalRunning else true,
          retryNotices := if r.traffic = .pass then s.admission.retryNotices
            else s.admission.retryNotices + 1 } ∧
        expiredFrom .issued [.abandoned] r s t ∧
        unchangedBut [.control, .admission, .table, .gauge, .capture, .link, .answers] s t) ∧
    (s.entryAged i = false → exec (.entryExpiry i) s = .next s)

/-! ### Regulation -/

/-- HELD_EXPIRY: the request at its place whose age has reached the limit leaves its queue and is answered
EXPIRED; the expiry of a head sets the new head's reason and starts release evaluation; an expiry that is
not due changes nothing (notes/assumptions/1.md, notes/assumptions/15.md). -/
def Obligations.HeldExpiryClosesUpTheQueue : Prop :=
  ∀ (c : ClassId) (k : Nat) (s : State), s.control.resetHeld = false →
    (∀ r : Req, (s.cls c).queue[k]? = some r → s.aged r = true →
      ∃ t, exec (.heldExpiry c k) s = .next t ∧
        t.cls c = { s.cls c with
          queue := (s.cls c).queue.eraseIdx k,
          reason := if k = 0 then t.headReason c else (s.cls c).reason } ∧
        (∀ d : ClassId, d ≠ c → t.cls d = s.cls d) ∧
        t.admission = { s.admission with
          classes := t.admission.classes, retryNotices := s.admission.retryNotices + 1,
          evalRunning := if k = 0 then true else s.admission.evalRunning } ∧
        expiredFrom .held [] r s t ∧
        unchangedBut [.control, .admission, .gauge, .capture, .link, .answers] s t) ∧
    (s.heldAged c k = false → exec (.heldExpiry c k) s = .next s)

/-- REFILL_BOUNDARY: a pending commit is applied first, then every class is refilled or lends, under the
settings then in force; the intake is told and release evaluation runs. That a boundary taken late moves the
schedule by one period is the model's reading (notes/assumptions/15.md). -/
def Obligations.BoundaryCommitsThenRefills : Prop :=
  ∀ s : State, s.control.resetHeld = false → s.boundaryDue = true →
    ∃ t, exec .refillBoundary s = .next t ∧
      (let k (c : ClassId) : ClassRec :=
        if s.classifier.commitPending = true then
          { s.cls c with active := (s.cls c).shadow,
                         credit := min (s.cls c).credit ((s.cls c).shadow.cap.toNat : Int),
                         quiet := if (s.cls c).shadow.raceEnable = true then (s.cls c).quiet else .active,
                         raceTime := 0, raceBytes := 0 }
        else s.cls c
      let lends (c : ClassId) : Prop := (k c).quiet = .quiet ∧ (k c).active.lend = true
      (∀ c : ClassId, (lends c → t.cls c = k c) ∧
        (¬ lends c → t.cls c = { k c with
          credit := min ((k c).active.cap.toNat : Int) ((k c).credit + (k c).active.refillRate.toNat) })) ∧
      t.admission.poolLevel = min s.admission.poolCap (s.admission.poolLevel +
        ((List.finRange 16).map (fun c =>
          if (k c).quiet == .quiet && (k c).active.lend then (k c).active.refillRate.toNat else 0)).sum)) ∧
      t.admission = { s.admission with
        classes := t.admission.classes, poolLevel := t.admission.poolLevel, evalRunning := true,
        retryNotices := t.admission.retryNotices,
        refillStart := s.admission.refillStart + BitVec.ofNat 32 s.admission.refillPeriod } ∧
      s.admission.retryNotices < t.admission.retryNotices ∧
      t.classifier = (if s.classifier.commitPending = true then
        { s.classifier with active := s.classifier.shadow, epoch := s.classifier.epoch + 1,
                            commitPending := false } else s.classifier) ∧
      raised (if s.classifier.commitPending = true then [.commitDone] else []) s t ∧
      unchangedBut [.control, .classifier, .admission, .link] s t

/-- The arbiter's choice: the lowest priority number among the eligible heads, and at that level the first
class after the one last served, wrapping from 15 to 0. -/
def Obligations.ArbiterPriorityThenRoundRobin : Prop :=
  ∀ (s : State) (c : ClassId),
    (s.arbiter = some c ↔
      s.eligible c = true ∧
      (∀ d : ClassId, s.eligible d = true → (s.cls c).active.priority ≤ (s.cls d).active.priority) ∧
      ∀ d : ClassId, s.eligible d = true → (s.cls d).active.priority = (s.cls c).active.priority →
        (c - s.admission.pointers[(s.cls c).active.priority] - 1).val ≤
          (d - s.admission.pointers[(s.cls c).active.priority] - 1).val) ∧
    (s.arbiter = none ↔ ∀ d : ClassId, s.eligible d = false)

/-- RELEASE_EVENT of a running evaluation: the arbiter's head is admitted and leaves its queue, and its
level's pointer names its class; with no eligible head the evaluation ends and sets the reasons. -/
def Obligations.ReleaseEventReleasesOrEnds : Prop :=
  ∀ s : State, s.control.resetHeld = false → s.admission.evalRunning = true →
    (∀ (c : ClassId) (r : Req) (rest : List Req), s.arbiter = some c → (s.cls c).queue = r :: rest →
      r.traffic = .cls c →
      ∃ t, exec .releaseEvent s = .next t ∧ classAdmitted c r s t ∧ (t.cls c).queue = rest ∧
        (t.cls c).reason = t.headReason c ∧ (∀ d : ClassId, d ≠ c → t.cls d = s.cls d) ∧
        t.admission = { s.admission with
          classes := t.admission.classes, poolLevel := t.admission.poolLevel,
          retryNotices := s.admission.retryNotices + 1,
          pointers := s.admission.pointers.set (s.cls c).active.priority c
            (s.cls c).active.priority.isLt } ∧
        unchangedBut [.control, .admission, .table, .gauge, .capture, .link] s t) ∧
    (s.waitOk → s.arbiter = none →
      ∃ t, exec .releaseEvent s = .next t ∧
        t.admission = { s.admission with classes := t.admission.classes, evalRunning := false } ∧
        (∀ c : ClassId, t.cls c = { s.cls c with
          reason := if (s.cls c).queue = [] then (s.cls c).reason else s.headReason c }) ∧
        unchangedBut [.admission] s t)

/-- The head block reason is the first of the tests that fails, in the order money, outstanding limit,
table room; an OPEN class is tested for room alone. -/
def Obligations.HeadBlockReasonIsFirstFailure : Prop :=
  ∀ (s : State) (c : ClassId) (r : Req) (rest : List Req), (s.cls c).queue = r :: rest →
    s.headReason c =
      (if (s.cls c).active.mode = .regulated ∧ (s.cls c).credit < 1 ∧ (s.cls c).active.borrow = false
        then .credit
      else if (s.cls c).active.mode = .regulated ∧ (s.cls c).credit < 1 ∧
          s.admission.poolLevel < r.len.val then .pool
      else if (s.cls c).active.mode = .regulated ∧
          (s.cls c).active.limit.toNat ≤ (s.cls c).outstanding then .limit
      else if s.freeEntries ≤ s.table.passReserve then .entry
      else .none) ∧
    (s.eligible c = true ↔ s.admissible c r.len.val)

/-- An OPEN class request may be admitted exactly when the free entry count is above the PASS reserve,
whatever credit, borrow enable, pool level and outstanding count are; its admission leaves credit and the
pool level as they were, with the borrowed flag clear. -/
def Obligations.OpenAdmissionNeedsRoomAlone : Prop :=
  ∀ (s : State) (c : ClassId) (r : Req), (s.cls c).active.mode = .openMode →
    (s.blockReason c r.len.val = .none ↔ s.table.passReserve < s.freeEntries) ∧
    ((admitClass c r s).cls c).credit = (s.cls c).credit ∧
    (admitClass c r s).admission.poolLevel = s.admission.poolLevel ∧
    (s.table.passReserve < s.freeEntries → ∃ i : EntryId, (s.table.entries[i]).isFree = true ∧
      (admitClass c r s).table.entries[i] = .queued r false)

/-- The byte event of the race lies within an admission of an enabled class: it restarts both counters and
leaves the class ACTIVE; short of it the bytes add up, and a disabled race does not count. -/
def Obligations.RaceBytesRestartAtActiveBytes : Prop :=
  ∀ (k : ClassRec) (n : Nat),
    (k.active.raceEnable = true → k.active.activeBytes.toNat ≤ k.raceBytes + n →
      k.addRace n = { k with quiet := .active, raceTime := 0, raceBytes := 0 }) ∧
    (k.active.raceEnable = true → k.raceBytes + n < k.active.activeBytes.toNat →
      k.addRace n = { k with raceBytes := k.raceBytes + n }) ∧
    (k.active.raceEnable = false → k.addRace n = k)

/-- QUIET_RACE_TIME_EVENT of a class whose race time has reached its quiet time: both counters restart and
the class is QUIET; QUIET is raised when it was ACTIVE. That it may be taken late is the model's reading
(notes/assumptions/15.md). -/
def Obligations.RaceTimeEventMakesQuiet : Prop :=
  ∀ (c : ClassId) (s : State), s.control.resetHeld = false → (s.cls c).active.raceEnable = true →
    (s.cls c).active.quietTime.toNat ≤ (s.cls c).raceTime →
    ∃ t, exec (.quietRaceTimeEvent c) s = .next t ∧
      t.cls c = { s.cls c with quiet := .quiet, raceTime := 0, raceBytes := 0 } ∧
      (∀ d : ClassId, d ≠ c → t.cls d = s.cls d) ∧
      t.admission = { s.admission with classes := t.admission.classes } ∧
      raised (if (s.cls c).quiet = .active then [.quiet] else []) s t ∧
      unchangedBut [.control, .admission, .link] s t

/-! ### Gauges, monitors and capture -/

/-- GAUGE_PERIOD_END: the sample is added to the accumulator, which wraps at 48 bits and then raises
GAUGE_WRAP; the counts and the period start again; the monitor takes the sample. That it may be taken late
is the model's reading (notes/assumptions/15.md). -/
def Obligations.PeriodEndAddsSample : Prop :=
  ∀ (g : GaugeId) (s : State), s.control.resetHeld = false →
    (s.gauge.gauges[g]).settings.enable = true →
    (s.gauge.gauges[g]).settings.period.toNat ≤ s.elapsed (s.gauge.gauges[g]).start →
    ∃ t, exec (.gaugePeriodEnd g) s = .next t ∧
      (let k := s.gauge.gauges[g]
      let a : Int := if k.settings.quantity = .heldLevel then s.holdLevel k.settings.inA else k.a
      let b : Int := if k.settings.quantity = .heldLevel then s.holdLevel k.settings.inB else k.b
      let x : Int := match k.settings.combine with
        | .a => a
        | .b => b
        | .aPlusB => a + b
        | .aMinusB => a - b
      let v : Int := match k.settings.sign with
        | .positive => max x 0
        | .negative => max (-x) 0
        | .signed => x
        | .magnitude => |x|
      let wraps : Prop := k.acc.toInt + v < -140737488355328 ∨ 140737488355327 < k.acc.toInt + v
      let m := (s.gauge.monitors[g]).live.state
      let m' := ((s.gauge.monitors[g]).sample v).live.state
      t.gauge = { s.gauge with
        gauges := s.gauge.gauges.set g { k with
          acc := BitVec.ofInt 48 (k.acc.toInt + v), wrapped := k.wrapped || decide wraps, a := 0, b := 0,
          start := s.control.time } g.isLt,
        monitors := s.gauge.monitors.set g ((s.gauge.monitors[g]).sample v) g.isLt } ∧
      t.capture = (if m ≠ .over ∧ m' = .over then s.capture.trigger (.monOver g) s.control.time RecBody.zero
        else if m ≠ .under ∧ m' = .under then
          s.capture.trigger (.monUnder g) s.control.time RecBody.zero
        else s.capture) ∧
      raised ((if wraps then [.gaugeWrap] else []) ++ (if m ≠ .over ∧ m' = .over then [.monOver g] else []) ++
        (if m ≠ .under ∧ m' = .under then [.monUnder g] else [])) s t) ∧
      unchangedBut [.control, .gauge, .capture, .link] s t

/-- An enabled monitor compares each sample with its thresholds and ends its window at the W-th; a disabled
one takes none. The end of a window, for a monitor whose settings are in their ranges: the verdict; the high
and the low run, which stop at 255; the clear run, which counts the windows that do not carry the verdict of
the state outside NORMAL, and is 0 in NORMAL and after a change of state; the entries to OVER and UNDER at
Mh and Ml; the returns from OVER and UNDER to NORMAL, exactly when the clear run reaches Mc and the other
state is not entered; and the durations. -/
def Obligations.MonitorSamplesAndWindows : Prop :=
  (∀ (m : Monitor) (v : Int),
    (m.settings.enable = false → m.sample v = m) ∧
    (m.settings.enable = true →
      (let high := m.live.high + (if m.settings.upper.toInt < v then 1 else 0)
      let low := m.live.low + (if v < m.settings.lower.toInt then 1 else 0)
      (m.live.pos + 1 < m.settings.window.toNat →
        m.sample v = { m with live := { m.live with pos := m.live.pos + 1, high := high, low := low } }) ∧
      (m.settings.window.toNat ≤ m.live.pos + 1 → m.sample v = m.windowEnd high low)))) ∧
  (∀ (m : Monitor) (high low : Nat), m.settings.ok →
    (let t := m.windowEnd high low
    t.settings = m.settings ∧ t.live.pos = 0 ∧ t.live.high = 0 ∧ t.live.low = 0 ∧
    (t.live.verdict = .high ↔ m.settings.nh.toNat < high) ∧
    (t.live.verdict = .low ↔ high ≤ m.settings.nh.toNat ∧ m.settings.nl.toNat < low) ∧
    (t.live.verdict = .normal ↔ high ≤ m.settings.nh.toNat ∧ low ≤ m.settings.nl.toNat) ∧
    (t.live.highRun = if t.live.verdict = .high then min (m.live.highRun + 1) 255 else 0) ∧
    (t.live.lowRun = if t.live.verdict = .low then min (m.live.lowRun + 1) 255 else 0) ∧
    (let clear := if m.live.state = .normal ∨ (m.live.state = .over ∧ t.live.verdict = .high) ∨
          (m.live.state = .under ∧ t.live.verdict = .low) then 0 else min (m.live.clearRun + 1) 255
    t.live.clearRun = (if t.live.state = m.live.state then clear else 0) ∧
    (m.live.state = .over → (t.live.state = .normal ↔
      t.live.lowRun < m.settings.ml.toNat ∧ m.settings.mc.toNat ≤ clear)) ∧
    (m.live.state = .under → (t.live.state = .normal ↔
      t.live.highRun < m.settings.mh.toNat ∧ m.settings.mc.toNat ≤ clear))) ∧
    (m.live.state ≠ .over → (t.live.state = .over ↔ m.settings.mh.toNat ≤ t.live.highRun)) ∧
    (m.live.state ≠ .under → (t.live.state = .under ↔ m.settings.ml.toNat ≤ t.live.lowRun)) ∧
    t.overWindows = (if t.live.state = .over then min (m.overWindows + 1) 16777215 else m.overWindows) ∧
    t.underWindows = (if t.live.state = .under then min (m.underWindows + 1) 16777215
      else m.underWindows)))

/-- What becomes of an offered record: in ARMED an eligible one joins the ring, which keeps the newest K and
counts what it drops; in TRIGGERED it joins the tail, and the N-th ends the capture; elsewhere, and when it
is not eligible, it is not kept. A selected trigger source offered in ARMED appends its MARK record and
starts the tail; any other offer of a source changes nothing. A record is eligible exactly when its kind is
in the kind set, its class or NONE in the class mask, and it is marked where only marked ones are kept. A
monitor's source and an answer's source are selected by their bits of the trigger selection, the TRIGGER
command always. -/
def Obligations.CaptureKeepsRecordsAndMarks : Prop :=
  (∀ (c : Capture) (r : Rec),
    (c.settings.eligible r = false → c.offer r = c) ∧
    (c.state = .idle ∨ c.state = .done → c.offer r = c) ∧
    (c.state = .armed → c.settings.eligible r = true → c.buffer.length ≤ c.settings.preCount →
      (c.offer r).state = .armed ∧
      (c.offer r).buffer = (c.buffer ++ [r]).drop (c.buffer.length + 1 - c.settings.preCount) ∧
      (c.offer r).dropped = (if c.buffer.length < c.settings.preCount then c.dropped
        else min (c.dropped + 1) 4294967295)) ∧
    (c.state = .triggered → c.settings.eligible r = true →
      (c.offer r).buffer = c.buffer ++ [r] ∧ (c.offer r).postAppended = c.postAppended + 1 ∧
      (c.offer r).dropped = c.dropped ∧
      ((c.offer r).state = .done ↔ c.settings.postCount ≤ c.postAppended + 1))) ∧
  (∀ (c : Capture) (x : TrigSource) (now : Stamp) (b : RecBody),
    (c.state = .armed → c.settings.selects x = true →
      c.trigger x now b = { c with
        buffer := c.buffer ++ [{ kind := .mark x, stamp := now, body := b }], state := .triggered,
        postAppended := 0 }) ∧
    (c.state ≠ .armed ∨ c.settings.selects x = false → c.trigger x now b = c) ∧
    (∀ g : GaugeId, c.settings.selects (.monOver g) = c.settings.trigOver.getLsbD g.val ∧
      c.settings.selects (.monUnder g) = c.settings.trigUnder.getLsbD g.val) ∧
    [TrigSource.command, .expired, .fault, .bounce].map c.settings.selects =
      [true, c.settings.trigAnswers.getLsbD 0, c.settings.trigAnswers.getLsbD 1,
        c.settings.trigAnswers.getLsbD 2]) ∧
  ∀ (c : CapSettings) (r : Rec), c.eligible r = true ↔
    (match r.kind with
      | .held => c.kindSet.getLsbD 0 = true
      | .admitted _ _ => c.kindSet.getLsbD 1 = true
      | .completed _ _ => c.kindSet.getLsbD 2 = true
      | .expired _ => c.kindSet.getLsbD 3 = true
      | .bounced => c.kindSet.getLsbD 4 = true
      | .denied => c.kindSet.getLsbD 5 = true
      | .late => c.kindSet.getLsbD 6 = true
      | .mark _ => False) ∧
    (match r.body.cls with
      | some d => c.classMask.getLsbD d.val = true
      | none => c.classMask.getLsbD 16 = true) ∧
    (c.markedOnly = true → r.body.mark = true)

/-! ### Flags, ALERT and RDY -/

/-- A raise sets its own flag and no other; the flags stand in the bits of the two event words in R203's
order; ALERT is high exactly while a set flag is enabled in its word's mask, and low while RESET is held;
RDY is high exactly in REPLY_READY with no fetch of the reply under way, and in RECEIVING when the frame
arrived there, and low while RESET is held. That a fetch opened in EXECUTING, still under way when the link
reaches REPLY_READY, does not hold RDY low, against R161 and R164, is the model's choice
(notes/assumptions/24.md). -/
def Obligations.RaisesAndAlert : Prop :=
  (∀ (f f' : Flag) (s : State),
    (raise f s).flagSet f = true ∧ (f' ≠ f → (raise f s).flagSet f' = s.flagSet f') ∧
    unchangedBut [.control] s (raise f s)) ∧
  ([.commitDone, .expired, .abandoned, .late, .orphan, .fault, .denied, .bounced, .stalled, .quiet, .wake,
    .gaugeWrap, .captureTriggered, .captureDone, .linkError, .swept].map
      (fun f => readElem 6 0 (raise f State.reset)) = (List.range 16).map (fun j => 1#32 <<< j)) ∧
  (∀ g : GaugeId, readElem 6 1 (raise (.monOver g) State.reset) = 1#32 <<< g.val ∧
    readElem 6 1 (raise (.monUnder g) State.reset) = 1#32 <<< (8 + g.val)) ∧
  (∀ s : State, s.alert = true ↔ s.control.resetHeld = false ∧
    ∃ j < 16, (s.control.flags0.getLsbD j = true ∧ s.control.mask0.getLsbD j = true) ∨
      (s.control.flags1.getLsbD j = true ∧ s.control.mask1.getLsbD j = true)) ∧
  ∀ s : State, s.rdy = true ↔ s.control.resetHeld = false ∧
    (s.link.state = .replyReady false ∨ s.link.state = .receiving true)

/-! ### The service link -/

/-- The first byte of a transfer: 0xC3 opens a frame in IDLE and REPLY_READY and is an overrun in EXECUTING,
under either row's name; 0x3C begins a fetch in REPLY_READY and is nothing elsewhere; any other byte is
counted (notes/assumptions/9.md). SEL rising before a frame is complete: counted, LINK_ERROR, and back to
the state it came from with the stored and kept replies as they were. SDO drives 0x00 for each byte (that
State logs these bytes, the opener of a fetch among them, and that the number of bytes of a truncated frame
is a free value, is the model's: notes/assumptions/8.md). SEL falls with the first byte and rises at the
end. In a period in which RESET was released with SEL low, the link makes nothing of an opener and counts
nothing; the end of a transfer is then the rise of SEL, which ends that period (notes/assumptions/18.md). -/
def Obligations.OpenersAndTruncation : Prop :=
  (∀ s : State, s.control.resetHeld = false → s.link.sel ≠ .ignored →
    (∀ b : Byte, s.waitOk → b ≠ 0xC3#8 → b ≠ 0x3C#8 →
      exec (.openerError b) s = .next { s with
        link := { s.link with sel := .low, counters := { s.link.counters with
          openerError := min (s.link.counters.openerError + 1) 65535 } },
        sdo := s.sdo ++ [0] }) ∧
    (s.waitOk → s.link.state = .idle →
      exec .frameOpener s = .next { s with
        link := { s.link with sel := .low, state := .receiving false }, sdo := s.sdo ++ [0] }) ∧
    (s.waitOk → s.link.state = .replyReady false →
      exec .frameOpener s = .next { s with
        link := { s.link with sel := .low, state := .receiving true }, sdo := s.sdo ++ [0] }) ∧
    (∀ run : Run, s.link.state = .executing run →
      ∃ t, exec .overrun s = .next t ∧ exec .frameOpener s = .next t ∧ t.sdo = s.sdo ++ [0] ∧
        t.link.counters = { s.link.counters with overrun := min (s.link.counters.overrun + 1) 65535 } ∧
        ((∀ (m0 : BitVec 16) (since : Stamp), s.link.wait ≠ .await m0 since) →
          t.link = { s.link with sel := .low, counters := t.link.counters }) ∧
        raised [.linkError] s t ∧ unchangedBut [.control, .link, .sdo] s t) ∧
    (s.link.state = .replyReady false →
      exec .replyFetch s = .next { s with
        link := { s.link with sel := .low, state := .replyReady true }, sdo := s.sdo ++ [0] }) ∧
    ((∀ fetching : Bool, s.link.state ≠ .replyReady fetching) →
      exec .replyFetch s = .next { s with link := { s.link with sel := .low }, sdo := s.sdo ++ [0] })) ∧
  (∀ (fromReady : Bool) (s : State), s.control.resetHeld = false → s.link.sel ≠ .ignored →
    s.link.state = .receiving fromReady →
    ∃ t, exec .truncation s = .next t ∧
      t.link = { s.link with
        sel := .high, state := if fromReady = true then .replyReady false else .idle,
        counters := { s.link.counters with truncation := min (s.link.counters.truncation + 1) 65535 } } ∧
      t.sdo = s.sdo ++ List.replicate (Config.truncatedBytes s.freePicks) 0 ∧
      t.freePicks = s.freePicks + 1 ∧
      raised [.linkError] s t ∧ unchangedBut [.control, .link, .sdo, .freePicks] s t) ∧
  ∀ s : State, s.control.resetHeld = false → s.link.sel = .ignored →
    (∀ c : Instr, ((∃ b, c = .openerError b) ∨ c = .frameOpener ∨ c = .overrun ∨ c = .replyFetch) →
      exec c s = .next s) ∧
    exec .truncation s = .next { s with
      link := { s.link with sel := .high },
      sdo := s.sdo ++ List.replicate (Config.truncatedBytes s.freePicks) 0,
      freePicks := s.freePicks + 1 } ∧
    (∀ n : Nat, exec (.fetchEnd n) s = .next { s with
      link := { s.link with sel := .high }, sdo := s.sdo ++ List.replicate n 0 }) ∧
    ∀ (c : Instr) (bytes : List Byte),
      (c = .checkFail bytes ∨ c = .repeatFrame bytes ∨ c = .commandFrame bytes) →
      exec c s = .next { s with
        link := { s.link with sel := .high }, sdo := s.sdo ++ List.replicate bytes.length 0 }

/-- A complete frame whose CRC does not check is answered CHECK, counted, and as a dropped reply too when
one waited; the kept reply stays. A good frame under the kept reply's nonzero sequence is not run but
answered from the kept reply, and counted. SDO drives 0x00 for the bytes of either, and the transfer is over
with them (notes/assumptions/18.md). -/
def Obligations.CheckFailAndRepeat : Prop :=
  (∀ (fromReady : Bool) (bytes : List Byte) (f : Frame) (s : State), s.control.resetHeld = false →
    s.link.sel ≠ .ignored → s.link.state = .receiving fromReady → parseFrame bytes = some f →
    crc16 f.covered ≠ f.crc →
    ∃ t, exec (.checkFail bytes) s = .next t ∧
      t.link = { s.link with
        sel := .high, state := .replyReady false,
        stored := some { seq := f.seq, status := .check, failIdx := 0, executed := 0, data := [] },
        counters := { s.link.counters with
          checkFail := min (s.link.counters.checkFail + 1) 65535,
          droppedReply := if fromReady = true then min (s.link.counters.droppedReply + 1) 65535
            else s.link.counters.droppedReply } } ∧
      t.sdo = s.sdo ++ List.replicate bytes.length 0 ∧
      raised [.linkError] s t ∧ unchangedBut [.control, .link, .sdo] s t) ∧
  (∀ (fromReady : Bool) (bytes : List Byte) (f : Frame) (k : Reply) (s : State),
    s.control.resetHeld = false → s.link.sel ≠ .ignored → s.link.state = .receiving fromReady →
    parseFrame bytes = some f → crc16 f.covered = f.crc → f.seq ≠ 0 → s.link.kept = some k →
    k.seq = f.seq →
    exec (.repeatFrame bytes) s = .next { s with
      link := { s.link with
        sel := .high, state := .replyReady false, stored := some k,
        counters := { s.link.counters with repeats := min (s.link.counters.repeats + 1) 65535 } },
      sdo := s.sdo ++ List.replicate bytes.length 0 })

/-- A good frame that is no repeat is taken for running, and drops a reply that waited; one without commands
is answered OK at once, and one with a body above 1024 bytes is answered PARSE. SDO drives 0x00 for its
bytes, and the transfer is over with them (notes/assumptions/18.md). -/
def Obligations.CommandFrameIsRun : Prop :=
  ∀ (fromReady : Bool) (bytes : List Byte) (f : Frame) (s : State), s.control.resetHeld = false →
    s.link.sel ≠ .ignored → s.link.state = .receiving fromReady → parseFrame bytes = some f →
    crc16 f.covered = f.crc → (f.seq = 0 ∨ ∀ k : Reply, s.link.kept = some k → k.seq ≠ f.seq) →
    ∃ t, exec (.commandFrame bytes) s = .next t ∧ unchangedBut [.link, .sdo] s t ∧
      t.sdo = s.sdo ++ List.replicate bytes.length 0 ∧
      t.link = { s.link with
        sel := .high, state := t.link.state, stored := t.link.stored, kept := t.link.kept, wait := .none,
        counters := { s.link.counters with
          droppedReply := if fromReady = true then min (s.link.counters.droppedReply + 1) 65535
            else s.link.counters.droppedReply } } ∧
      (f.body ≠ [] → f.body.length ≤ 1024 →
        t.link.state = .executing { seq := f.seq, body := f.body, nRun := 0, data := [] } ∧
        t.link.stored = (if fromReady = true then none else s.link.stored) ∧
        t.link.kept = s.link.kept) ∧
      (f.body = [] → t.link.state = .replyReady false ∧
        t.link.stored = some { seq := f.seq, status := .ok, failIdx := 0, executed := 0, data := [] } ∧
        t.link.kept = t.link.stored) ∧
      (1024 < f.body.length → t.link.state = .replyReady false ∧
        t.link.stored = some { seq := f.seq, status := .parse, failIdx := 0, executed := 0, data := [] } ∧
        t.link.kept = t.link.stored)

/-- The end of a fetch: the reply's bytes have been clocked out from its first, zeros beyond its end; a
whole fetch goes to IDLE, one cut short back to REPLY_READY; elsewhere only zeros were clocked, and nothing
but SEL changes (notes/assumptions/13.md, and notes/assumptions/24.md for a fetch that outlasts a frame). -/
def Obligations.FetchClocksStoredReply : Prop :=
  ∀ (n : Nat) (s : State), s.control.resetHeld = false → s.link.sel ≠ .ignored →
    (∀ r : Reply, s.link.state = .replyReady true → s.link.stored = some r →
      ∃ t, exec (.fetchEnd n) s = .next t ∧
        (∃ out : List Byte, t.sdo = s.sdo ++ out ∧ out.length = n ∧
          ∀ j < n, out[j]? = some (r.bytes.getD j 0)) ∧
        t.link = { s.link with
          sel := .high, state := if r.bytes.length ≤ n then .idle else .replyReady false } ∧
        unchangedBut [.link, .sdo] s t) ∧
    (s.link.state ≠ .replyReady true →
      exec (.fetchEnd n) s = .next { s with
        link := { s.link with sel := .high }, sdo := s.sdo ++ List.replicate n 0 })

/-- The raise of a masked flag within an event of the memory path, of regulation or of the gauges, and the
LINK_ERROR of an OVERRUN, ends a running AWAIT in that event, with the microseconds waited and the way
EVENT; without one the wait goes on. That it ends at the end of that event is the model's reading
(notes/assumptions/6.md). When no AWAIT runs, with a DELAY or none, the events of the other blocks leave the
service link as it was. -/
def Obligations.MaskedRaiseEndsAwait : Prop :=
  (∀ (c : Instr) (m0 : BitVec 16) (since : Stamp) (s t : State), s.waitOk →
    s.link.wait = .await m0 since → ofOtherBlocks c → exec c s = .next t →
    (maskedFlagSet m0 s.link.awaitMask1 t = true → ∀ run : Run, s.link.state = .executing run →
      waitEnded run (s.control.time - since).toNat .event s t) ∧
    (maskedFlagSet m0 s.link.awaitMask1 t = false → t.link = s.link)) ∧
  (∀ (c : Instr) (s t : State), (∀ (m0 : BitVec 16) (since : Stamp), s.link.wait ≠ .await m0 since) →
    ofOtherBlocks c → exec c s = .next t → t.link = s.link) ∧
  ∀ (m0 : BitVec 16) (since : Stamp) (run : Run) (s : State), s.control.resetHeld = false →
    s.link.sel ≠ .ignored → s.waitOk → s.link.wait = .await m0 since → s.link.state = .executing run →
    ∃ t, exec .overrun s = .next t ∧
      (let counted := { s with link := { s.link with sel := .low, counters := { s.link.counters with
        overrun := min (s.link.counters.overrun + 1) 65535 } } }
      (m0.getLsbD 14 = true → waitEnded run (s.control.time - since).toNat .event counted t) ∧
      (m0.getLsbD 14 = false → t.link = counted.link))

/-- A link command whose checks 1 to 4 fail stops the frame with the first failing check's status, and
changes nothing but the link; so does a body that ends within a header, with status PARSE. What each check
tests: PARSE, a command that is not whole or that writes the await or the delay item with a count above 1;
RANGE, elements that reach past the panel's size; ACCESS, a write of a position that takes none, the
identity panel, the mirrors, the tallies, the live state and the table view among them, or a read of the
await or the delay item. FULL, data above 1024 bytes. Which of several rows of one command runs it is the
model's choice (notes/assumptions/20.md). -/
def Obligations.FailedChecksStopTheFrame : Prop :=
  (∀ (run : Run) (s : State), s.control.resetHeld = false → s.link.state = .executing run →
    s.link.wait = .none → parseCmd run.body = none →
    ∃ t, exec .readCommand s = .next t ∧ exec .registerWrite s = .next t ∧
      frameRefused .parse run s t ∧ unchangedBut [.link] s t) ∧
  (∀ (row : Row) (run : Run) (k : Cmd) (s : State), NextCommand s run k →
    k.isRow s.link.cursors[k.panel] row = true →
    (let cur := s.link.cursors[k.panel]
    (k.parseFails cur = true →
      ∃ t, exec row.instr s = .next t ∧ frameRefused .parse run s t ∧ unchangedBut [.link] s t) ∧
    (k.parseFails cur = false → k.rangeFails cur = true →
      ∃ t, exec row.instr s = .next t ∧ frameRefused .range run s t ∧ unchangedBut [.link] s t) ∧
    (k.parseFails cur = false → k.rangeFails cur = false → k.accessFails cur = true →
      ∃ t, exec row.instr s = .next t ∧ frameRefused .access run s t ∧ unchangedBut [.link] s t) ∧
    (k.parseFails cur = false → k.rangeFails cur = false → k.accessFails cur = false →
      k.write = false → 1024 < run.data.length + 4 * k.count →
      ∃ t, exec row.instr s = .next t ∧ frameRefused .full run s t ∧ unchangedBut [.link] s t))) ∧
  ∀ (k : Cmd) (cur : BitVec 16),
    (let first := match k.pos with
      | some p => p.toNat
      | none => cur.toNat
    let size := [8, 706, 576, 521, 128, 12, 30, 516].getD k.panel.val 0
    let takesWrite (p : Nat) : Prop := match k.panel.val with
      | 1 => p ≤ 192
      | 2 => p < 64
      | 3 => (p < 512 ∧ p % 32 = 17) ∨ p = 520
      | 4 => p < 128 ∧ p % 16 ∈ [0, 1, 5, 6, 7, 8, 9, 14]
      | 5 => p ∈ [0, 1, 2, 3, 4, 8, 9, 10]
      | 6 => p ∈ [0, 1, 2, 3, 6, 7, 10, 11, 12, 13, 14, 16, 17, 18, 19, 20, 22, 29]
      | _ => False
    let waits (p : Nat) : Prop := k.panel.val = 6 ∧ (p = 18 ∨ p = 22)
    (k.posFlag = false ∨ k.pos ≠ none → k.positions cur =
      (List.range k.count).map (fun i => if k.step = true then first + i else first)) ∧
    (k.parseFails cur = true ↔ k.whole = false ∨
      (k.write = true ∧ 1 < k.count ∧ ∃ p ∈ k.positions cur, waits p)) ∧
    (k.rangeFails cur = true ↔
      if k.step = true then size < first + k.count else size ≤ first) ∧
    (k.accessFails cur = true ↔ if k.write = true then ∃ p ∈ k.positions cur, ¬ takesWrite p
      else ∃ p ∈ k.positions cur, waits p))

/-- A write command of any number of elements is done whole, each element against what the earlier ones
leave, or stops the frame with nothing written. SEL is left alone, and the wait and the await items are as
the writes leave them. A refused command changes the commit fault item only when it writes the commit item
with no commit pending and the shadow set fails validation: then the item names the failure and the status
is INVALID. How the trial of several elements goes on, and which of several rows of one command runs it, are
the model's readings (notes/assumptions/10.md, notes/assumptions/20.md). -/
def Obligations.WriteCommandsAreWholeOrNothing : Prop :=
  ∀ (row : Row) (run : Run) (k : Cmd) (s : State), NextCommand s run k →
    k.isRow s.link.cursors[k.panel] row = true → k.write = true →
    k.parseFails s.link.cursors[k.panel] = false → k.rangeFails s.link.cursors[k.panel] = false →
    k.accessFails s.link.cursors[k.panel] = false →
    (let ps := k.positions s.link.cursors[k.panel]
    (∀ s' : State, writeAll k.panel (ps.zip k.words) s = some s' → thresholdsLeft k.panel ps s' = true →
      ∃ t, exec row.instr s = .next t ∧ commandRan k run [] s t ∧ unchangedBut [.link] s' t ∧
        (t.link.sel, t.link.counters, t.link.wait, t.link.awaitMask1, t.link.awaitLimit, t.link.awaitTime,
          t.link.awaitWay) =
          (s.link.sel, s'.link.counters, s'.link.wait, s'.link.awaitMask1, s'.link.awaitLimit,
            s'.link.awaitTime, s'.link.awaitWay)) ∧
    ((∀ s' : State, writeAll k.panel (ps.zip k.words) s = some s' →
        thresholdsLeft k.panel ps s' = false) →
      ∃ t, exec row.instr s = .next t ∧
        (frameRefused .state run s t ∨ frameRefused .invalid run s t) ∧
        unchangedBut [.link, .classifier] s t ∧
        t.classifier = { s.classifier with fault := t.classifier.fault } ∧
        (t.classifier.fault = s.classifier.fault ∨
          (k.panel = 6 ∧ 6 ∈ ps ∧ s.classifier.commitPending = false ∧ s.validate ≠ .none ∧
            t.classifier.fault = s.validate ∧ frameRefused .invalid run s t))))

/-- READ_COMMAND: a read whose elements do not act returns, for each, the value at the start of the command,
and changes nothing but the link. What elements read in every state: a class's credit, counts, reason, quiet
state, race counters and tallies; the free slot count, the entry-wait set, the pointers and the global
tallies; the flags, the masks, the intake item, the commit items, the live settings, the time, the await
items and the link counters; the five words of each entry of the table view with its place in the issue
queue, and the counts of entries in each state; the setting elements of panels 1, 2, 4 and 5 with their
mirrors, each the word of its group, the default results and the epoch; and 0 at a command item and at a
position with no item. -/
def Obligations.ReadCommandReturnsSnapshot : Prop :=
  (∀ (run : Run) (k : Cmd) (s : State), NextCommand s run k → k.write = false → k.whole = true →
    k.rangeFails s.link.cursors[k.panel] = false →
    (∀ p ∈ k.positions s.link.cursors[k.panel], readRow k.panel p = .readCommand ∧
      ¬ (k.panel = 4 ∧ p % 16 = 3) ∧ writeOnly k.panel p = false) →
    run.data.length + 4 * k.count ≤ 1024 →
    ∃ t, exec .readCommand s = .next t ∧
      commandRan k run ((k.positions s.link.cursors[k.panel]).flatMap
        (fun p => wordBytes (readElem k.panel p s))) s t ∧
      waitFrame s t ∧ unchangedBut [.link] s t) ∧
  (∀ (c : ClassId) (s : State),
    readElem 3 (32 * c.val) s = BitVec.ofInt 32 (s.cls c).credit ∧
    (readElem 3 (32 * c.val + 1) s).extractLsb' 0 7 = BitVec.ofNat 7 (s.cls c).outstanding ∧
    (readElem 3 (32 * c.val + 1) s).extractLsb' 8 8 = BitVec.ofNat 8 (s.cls c).queue.length ∧
    (readElem 3 (32 * c.val + 1) s).extractLsb' 16 3 = (match (s.cls c).reason with
      | .none => 0#3 | .credit => 1#3 | .limit => 2#3 | .entry => 3#3 | .pool => 4#3) ∧
    ((readElem 3 (32 * c.val + 1) s).getLsbD 20 = true ↔ (s.cls c).quiet = .quiet) ∧
    (readElem 3 (32 * c.val + 2) s).toNat = (s.cls c).raceTime % 2 ^ 24 ∧
    (readElem 3 (32 * c.val + 3) s).toNat = (s.cls c).raceBytes % 2 ^ 24 ∧
    (List.range 13).map (fun i => readElem 3 (32 * c.val + 4 + i) s) =
      (let k := s.gauge.tallies[c]
      [k.arrivals, k.held, k.admitted, k.readBytes, k.writeBytes, k.borrowedBytes, k.bounced, k.expired,
        k.completedOk, k.completedFault, k.latencySum, k.latencyMax, k.late]) ∧
    ((readElem 3 513 s).getLsbD c.val = true ↔ (s.cls c).reason = .entry)) ∧
  (∀ s : State,
    (List.range 5).map (fun i => readElem 3 (515 + i) s) =
      [s.gauge.denied, s.gauge.passAdmitted, s.gauge.passCompleted, s.gauge.orphans, s.gauge.sweeps] ∧
    (∀ l : Fin 4, (readElem 3 514 s).extractLsb' (4 * l.val) 4 = BitVec.ofFin s.admission.pointers[l]) ∧
    (List.range 4).map (fun p => readElem 6 p s) =
      [s.control.flags0, s.control.flags1, s.control.mask0, s.control.mask1].map (BitVec.zeroExtend 32) ∧
    (List.range 6).map (fun i => (readElem 6 (23 + i) s).toNat) =
      [s.link.counters.openerError, s.link.counters.truncation, s.link.counters.checkFail,
        s.link.counters.overrun, s.link.counters.droppedReply, s.link.counters.repeats].map (· % 65536) ∧
    (readElem 6 21 s).extractLsb' 0 16 = BitVec.ofNat 16 s.link.awaitTime ∧
    (readElem 6 21 s).extractLsb' 16 2 = (match s.link.awaitWay with
      | .none => 0#2 | .event => 1#2 | .limit => 2#2) ∧
    readElem 6 8 s = (match s.classifier.fault with
      | .none => 0#32
      | .rule i .baseAboveLimit => BitVec.ofNat 32 (1 + 256 * i.val + 65536 * 1)
      | .rule i .minAboveMax => BitVec.ofNat 32 (1 + 256 * i.val + 65536 * 2)
      | .cls c .limitRange => BitVec.ofNat 32 (2 + 256 * c.val + 65536 * 3)
      | .cls c .quotaRange => BitVec.ofNat 32 (2 + 256 * c.val + 65536 * 4)
      | .cls c .raceZero => BitVec.ofNat 32 (2 + 256 * c.val + 65536 * 5)) ∧
    [9, 10, 11, 12, 13, 14, 15, 19, 20].map (fun p => readElem 6 p s) =
      [s.classifier.epoch.zeroExtend 32,
        BitVec.ofNat 32 s.admission.refillPeriod, BitVec.ofNat 32 s.table.ageLimit,
        BitVec.ofNat 32 s.table.passReserve, BitVec.ofNat 32 s.admission.poolCap,
        BitVec.ofNat 32 s.admission.poolLevel, s.control.time, s.link.awaitMask1.zeroExtend 32,
        BitVec.ofNat 32 s.link.awaitLimit] ∧
    (readElem 6 6 s = if s.classifier.commitPending = true then 1#32 else 0#32) ∧
    (s.intake = .empty → readElem 6 4 s = 0 ∧ readElem 6 5 s = 0) ∧
    ∀ (r : Req) (w : WaitReason), s.intake = .waiting r w →
      (readElem 6 4 s).getLsbD 0 = true ∧ ((readElem 6 4 s).getLsbD 1 = true ↔ w = .entry) ∧
      (∀ c : ClassId, r.traffic = .cls c → (readElem 6 4 s).extractLsb' 4 5 = BitVec.ofNat 5 c.val) ∧
      (r.traffic = .pass → (readElem 6 4 s).extractLsb' 4 5 = 16#5) ∧
      (readElem 6 4 s).extractLsb' 16 8 = r.source ∧ (readElem 6 4 s).extractLsb' 24 8 = r.tag ∧
      readElem 6 5 s = r.stamp) ∧
  (∀ (i : EntryId) (s : State),
    (s.table.entries[i] = .free → readElem 7 (8 * i.val) s = 0x007F0000#32 ∧
      ∀ w < 4, readElem 7 (8 * i.val + 1 + w) s = 0) ∧
    ∀ (r : Req) (b : Bool),
      s.table.entries[i] = .queued r b ∨ s.table.entries[i] = .issued r b ∨
        s.table.entries[i] = .abandoned r b →
      (readElem 7 (8 * i.val) s).extractLsb' 0 2 = (match s.table.entries[i] with
        | .free => 0#2 | .queued _ _ => 1#2 | .issued _ _ => 2#2 | .abandoned _ _ => 3#2) ∧
      (∀ c : ClassId, r.traffic = .cls c →
        (readElem 7 (8 * i.val) s).extractLsb' 4 5 = BitVec.ofNat 5 c.val) ∧
      (r.traffic = .pass → (readElem 7 (8 * i.val) s).extractLsb' 4 5 = 16#5) ∧
      ((readElem 7 (8 * i.val) s).getLsbD 12 = true ↔ r.kind = .write) ∧
      (readElem 7 (8 * i.val) s).getLsbD 13 = b ∧ (readElem 7 (8 * i.val) s).getLsbD 14 = r.mark ∧
      (∀ q < 64, s.issueQOk → s.table.issueQ[q]? = some i →
        (readElem 7 (8 * i.val) s).extractLsb' 16 7 = BitVec.ofNat 7 q) ∧
      ((s.table.entries[i]).isQueued = false → (readElem 7 (8 * i.val) s).extractLsb' 16 7 = 127#7) ∧
      (readElem 7 (8 * i.val + 1) s).extractLsb' 0 8 = r.source ∧
      (readElem 7 (8 * i.val + 1) s).extractLsb' 8 8 = r.tag ∧
      (readElem 7 (8 * i.val + 1) s).extractLsb' 16 9 = BitVec.ofNat 9 r.len.val ∧
      readElem 7 (8 * i.val + 2) s = r.addr.extractLsb' 0 32 ∧
      (readElem 7 (8 * i.val + 3) s).extractLsb' 0 8 = r.addr.extractLsb' 32 8 ∧
      (readElem 7 (8 * i.val + 3) s).extractLsb' 16 16 = r.epoch ∧
      readElem 7 (8 * i.val + 4) s = r.stamp) ∧
  (∀ (r : Fin 48) (c : ClassId) (w : Fin 4) (s : State),
    readElem 1 (4 * r.val + w.val) s = (s.classifier.shadow.rules[r]).word w.val ∧
    readElem 1 (512 + 4 * r.val + w.val) s = (s.classifier.active.rules[r]).word w.val ∧
    readElem 2 (4 * c.val + w.val) s = (s.cls c).shadow.word w.val ∧
    readElem 2 (512 + 4 * c.val + w.val) s = (s.cls c).active.word w.val) ∧
  (∀ s : State,
    (let code (d : Result) : Word := match d with
      | .cls c => BitVec.ofNat 32 c.val
      | .pass => 16#32
      | .deny => 17#32
    readElem 1 192 s = code s.classifier.shadow.dflt ∧ readElem 1 704 s = code s.classifier.active.dflt ∧
    readElem 1 705 s = s.classifier.epoch.zeroExtend 32)) ∧
  (∀ (g : GaugeId) (s : State),
    (∀ w : Fin 2, readElem 4 (16 * g.val + w.val) s = (s.gauge.gauges[g]).settings.word w.val) ∧
    (∀ w : Fin 4,
      readElem 4 (16 * g.val + 6 + w.val) s = (s.gauge.monitors[g]).settings.word (6 + w.val)) ∧
    ∀ w : Fin 5, readElem 5 w.val s = s.capture.settings.word w.val) ∧
  (∀ s : State,
    readElem 3 512 s =
      BitVec.ofNat 32 (128 - ((List.finRange 16).map (fun c => (s.cls c).queue.length)).sum) ∧
    [512, 513, 514, 515].map (fun p => readElem 7 p s) =
      [Entry.isFree, Entry.isQueued, Entry.isIssued, Entry.isAbandoned].map
        (fun f => BitVec.ofNat 32 (s.table.entries.toList.countP f))) ∧
  ∀ (p : Nat) (s : State),
    (192 < p → p < 512 → readElem 1 p s = 0) ∧ (63 < p → p < 512 → readElem 2 p s = 0) ∧
    (p < 512 → 16 < p % 32 → readElem 3 p s = 0) ∧ readElem 3 520 s = 0 ∧
    (p < 128 → p % 16 = 5 ∨ 13 < p % 16 → readElem 4 p s = 0) ∧
    (p = 8 ∨ p = 9 ∨ p = 10 → readElem 5 p s = 0) ∧
    (p = 7 ∨ p = 16 ∨ p = 17 ∨ p = 29 → readElem 6 p s = 0) ∧
    (p < 512 → 4 < p % 8 → readElem 7 p s = 0)

/-- Panel 0 reads its eight fixed values in every state, so no event changes them; and every write to it,
of any number of elements, that is whole and inside the panel is refused ACCESS. -/
def Obligations.IdentityPanelIsFixed : Prop :=
  (∀ s : State, (List.range 8).map (fun p => readElem 0 p s) =
    [0x00013216#32, 1#32, 64#32, 128#32, 48#32, 16#32, 8#32, 512#32]) ∧
  ∀ (run : Run) (k : Cmd) (s : State), NextCommand s run k → k.write = true → k.panel = 0 →
    k.parseFails s.link.cursors[k.panel] = false → k.rangeFails s.link.cursors[k.panel] = false →
    ∃ t, exec .registerWrite s = .next t ∧ frameRefused .access run s t ∧ unchangedBut [.link] s t

/-- ACCUMULATOR_LOW_WORD_READ returns the low 32 bits and latches the upper 16, sign-extended; a read of the
high word returns the latch; one command that reads both returns the two halves of one value. And what the
wrapped indicator and the live elements of a monitor read in every state. Which row runs the command of both
words is the model's choice (notes/assumptions/20.md). -/
def Obligations.LowWordReadLatchesHigh : Prop :=
  (∀ (g : GaugeId) (run : Run) (k : Cmd) (s : State),
    (NextRead s run k 4 (16 * g.val + 2) →
      ∃ t, exec .accumulatorLowWordRead s = .next t ∧
        commandRan k run (wordBytes ((s.gauge.gauges[g]).acc.extractLsb' 0 32)) s t ∧ waitFrame s t ∧
        t.gauge = { s.gauge with gauges := updAt s.gauge.gauges g (fun q =>
          { q with latch := BitVec.ofInt 32 (q.acc.extractLsb' 32 16).toInt }) } ∧
        unchangedBut [.link, .gauge] s t) ∧
    (NextRead s run k 4 (16 * g.val + 3) →
      ∃ t, exec .readCommand s = .next t ∧
        commandRan k run (wordBytes (s.gauge.gauges[g]).latch) s t ∧ waitFrame s t ∧
        unchangedBut [.link] s t) ∧
    (NextCommand s run k → k.write = false → k.whole = true → k.panel = 4 → k.step = true → k.count = 2 →
      k.start s.link.cursors[k.panel] = 16 * g.val + 2 → run.data.length + 8 ≤ 1024 →
      ∃ t, exec .accumulatorLowWordRead s = .next t ∧ exec .readCommand s = .next t ∧
        commandRan k run (wordBytes ((s.gauge.gauges[g]).acc.extractLsb' 0 32) ++
          wordBytes (BitVec.ofInt 32 ((s.gauge.gauges[g]).acc.extractLsb' 32 16).toInt)) s t ∧
        waitFrame s t ∧
        t.gauge = { s.gauge with gauges := updAt s.gauge.gauges g (fun q =>
          { q with latch := BitVec.ofInt 32 (q.acc.extractLsb' 32 16).toInt }) } ∧
        unchangedBut [.link, .gauge] s t)) ∧
  ∀ (g : GaugeId) (s : State),
    (let m := s.gauge.monitors[g]
    readElem 4 (16 * g.val + 4) s = (if (s.gauge.gauges[g]).wrapped = true then 1#32 else 0#32) ∧
    (readElem 4 (16 * g.val + 10) s).extractLsb' 0 2 = (match m.live.state with
      | .normal => 0#2 | .over => 1#2 | .under => 2#2) ∧
    (readElem 4 (16 * g.val + 10) s).extractLsb' 4 2 = (match m.live.verdict with
      | .none => 0#2 | .high => 1#2 | .low => 2#2 | .normal => 3#2) ∧
    [8, 16, 24].map (fun b => (readElem 4 (16 * g.val + 10) s).extractLsb' b 8) =
      [m.live.pos, m.live.high, m.live.low].map (BitVec.ofNat 8) ∧
    [0, 8, 16].map (fun b => (readElem 4 (16 * g.val + 11) s).extractLsb' b 8) =
      [m.live.highRun, m.live.lowRun, m.live.clearRun].map (BitVec.ofNat 8) ∧
    (readElem 4 (16 * g.val + 12) s).toNat = m.overWindows % 2 ^ 24 ∧
    (readElem 4 (16 * g.val + 13) s).toNat = m.underWindows % 2 ^ 24)

/-- CAPTURE_DATA_PORT_READ: in DONE the next word of the head record, which the eighth word consumes, the
last record's taking the state to IDLE; otherwise the EMPTY word, and nothing is consumed. A command of any
count, within what the buffer holds, returns the next words of the records in order and consumes the whole
ones. What the capture status elements read, and the eight words of a record of each kind: word 0 is never
the EMPTY word and never 0, and reads 0 in its bits 31 to 14. -/
def Obligations.DataPortReads : Prop :=
  (∀ (run : Run) (k : Cmd) (s : State), NextRead s run k 5 11 →
    (∀ (r : Rec) (rest : List Rec), s.capture.state = .done → s.capture.buffer = r :: rest →
      ∃ t, exec .captureDataPortRead s = .next t ∧
        commandRan k run (wordBytes (r.word s.capture.wordPos)) s t ∧ waitFrame s t ∧
        t.capture = (if s.capture.wordPos = 7 then
          { s.capture with
            buffer := rest, preHeld := s.capture.preHeld - 1, wordPos := 0,
            state := if rest = [] then .idle else .done }
        else { s.capture with wordPos := s.capture.wordPos + 1 }) ∧
        unchangedBut [.link, .capture] s t) ∧
    (s.capture.state ≠ .done ∨ s.capture.buffer = [] →
      ∃ t, exec .captureDataPortRead s = .next t ∧ commandRan k run (wordBytes 0xFFFFFFFF#32) s t ∧
        waitFrame s t ∧ unchangedBut [.link] s t)) ∧
  (∀ (run : Run) (k : Cmd) (s : State), NextCommand s run k → k.write = false → k.whole = true →
    k.panel = 5 → k.step = false → k.start s.link.cursors[k.panel] = 11 →
    run.data.length + 4 * k.count ≤ 1024 → s.capture.state = .done →
    s.capture.wordPos.val + k.count ≤ 8 * s.capture.buffer.length →
    ∃ t, exec .captureDataPortRead s = .next t ∧
      commandRan k run (((s.capture.buffer.flatMap (fun r => (List.finRange 8).map r.word)).drop
        s.capture.wordPos.val).take k.count |>.flatMap wordBytes) s t ∧
      waitFrame s t ∧
      (let consumed := (s.capture.wordPos.val + k.count) / 8
      t.capture = { s.capture with
        buffer := s.capture.buffer.drop consumed, preHeld := s.capture.preHeld - consumed,
        wordPos := Fin.ofNat 8 (s.capture.wordPos.val + k.count),
        state := if s.capture.buffer.length ≤ consumed then .idle else .done }) ∧
      unchangedBut [.link, .capture] s t) ∧
  (∀ s : State,
    (readElem 5 5 s).extractLsb' 0 2 = (match s.capture.state with
      | .idle => 0#2 | .armed => 1#2 | .triggered => 2#2 | .done => 3#2) ∧
    (readElem 5 5 s).extractLsb' 4 3 = BitVec.ofFin s.capture.wordPos ∧
    (readElem 5 5 s).extractLsb' 16 10 = BitVec.ofNat 10 s.capture.buffer.length ∧
    (readElem 5 6 s).extractLsb' 0 9 = BitVec.ofNat 9 s.capture.preHeld ∧
    (readElem 5 6 s).extractLsb' 16 9 = BitVec.ofNat 9 s.capture.postAppended ∧
    readElem 5 7 s = BitVec.ofNat 32 s.capture.dropped) ∧
  (∀ r : Rec, r.word 0 ≠ 0xFFFFFFFF#32 ∧ r.word 0 ≠ 0 ∧ (r.word 0).toNat < 2 ^ 14 ∧
    (r.word 0).extractLsb' 0 4 = (match r.kind with
      | .held => 1#4 | .admitted _ _ => 2#4 | .completed _ _ => 3#4 | .expired _ => 4#4
      | .bounced => 5#4 | .denied => 6#4 | .late => 7#4 | .mark _ => 8#4) ∧
    (r.word 0).extractLsb' 4 5 = (match r.body.cls with
      | some c => BitVec.ofNat 5 c.val
      | none => 16#5) ∧
    ((r.word 0).getLsbD 12 = true ↔ r.body.kind = .write) ∧ (r.word 0).getLsbD 13 = r.body.mark ∧
    r.word 1 = r.stamp ∧
    (r.word 2).extractLsb' 0 8 = r.body.source ∧ (r.word 2).extractLsb' 8 8 = r.body.tag ∧
    (r.word 2).extractLsb' 16 9 = BitVec.ofNat 9 r.body.len ∧
    r.word 3 = r.body.addr.extractLsb' 0 32 ∧ (r.word 4).extractLsb' 0 8 = r.body.addr.extractLsb' 32 8 ∧
    r.word 5 = r.body.epoch.zeroExtend 32 ∧
    (r.word 6, r.word 7) = (match r.kind with
      | .admitted credit borrowed => (BitVec.ofInt 32 credit, if borrowed = true then 1#32 else 0#32)
      | .completed latency fault => (latency, if fault = true then 1#32 else 0#32)
      | .expired .intake => (1#32, 0#32)
      | .expired .held => (2#32, 0#32)
      | .expired .queued => (3#32, 0#32)
      | .expired .issued => (4#32, 0#32)
      | .mark .command => (1#32, 0#32)
      | .mark .expired => (2#32, 0#32)
      | .mark .fault => (3#32, 0#32)
      | .mark .bounce => (4#32, 0#32)
      | .mark (.monOver g) => (5#32, BitVec.ofNat 32 g.val)
      | .mark (.monUnder g) => (6#32, BitVec.ofNat 32 g.val)
      | .held => (0#32, 0#32)
      | .bounced => (0#32, 0#32)
      | .denied => (0#32, 0#32)
      | .late => (0#32, 0#32)))

/-! ### Writes of the classifier and of the class settings -/

/-- SHADOW_RULE_WRITE and SHADOW_CLASS_WRITE: an element of the shadow set changes, and nothing that is in
force. A rule's first element is refused INVALID for a result code above 17 or with both kind bits clear, no
other element of a rule is, the default result for a code above 17, and any of them STATE while a commit is
pending. -/
def Obligations.ShadowWritesChangeShadowAlone : Prop :=
  (∀ (q : Rule) (w : Fin 4) (v : Word), q.write w.val v = none ↔
    w = 0 ∧ (17 < (v.extractLsb' 8 5).toNat ∨ (v.getLsbD 1 = false ∧ v.getLsbD 2 = false))) ∧
  (∀ n : Nat, Result.ofCode n = if h : n < 16 then some (.cls ⟨n, h⟩) else if n = 16 then some .pass
    else if n = 17 then some .deny else none) ∧
  ∀ (run : Run) (k : Cmd) (v : Word) (s : State),
    (∀ (r : Fin 48) (w : Fin 4) (q : Rule), NextWrite s run k 1 (4 * r.val + w.val) v →
      s.classifier.commitPending = false → (s.classifier.shadow.rules[r]).write w.val v = some q →
      ∃ t, exec .shadowRuleWrite s = .next t ∧ commandRan k run [] s t ∧ waitFrame s t ∧
        t.classifier = { s.classifier with shadow := { s.classifier.shadow with
          rules := s.classifier.shadow.rules.set r q r.isLt } } ∧
        unchangedBut [.link, .classifier] s t) ∧
    (∀ d : Result, NextWrite s run k 1 192 v → s.classifier.commitPending = false →
      Result.ofCode (v.toNat % 32) = some d →
      ∃ t, exec .shadowRuleWrite s = .next t ∧ commandRan k run [] s t ∧ waitFrame s t ∧
        t.classifier = { s.classifier with shadow := { s.classifier.shadow with dflt := d } } ∧
        unchangedBut [.link, .classifier] s t) ∧
    (∀ (r : Fin 48) (w : Fin 4), NextWrite s run k 1 (4 * r.val + w.val) v →
      s.classifier.commitPending = false → (s.classifier.shadow.rules[r]).write w.val v = none →
      ∃ t, exec .shadowRuleWrite s = .next t ∧ frameRefused .invalid run s t ∧
        unchangedBut [.link] s t) ∧
    (NextWrite s run k 1 192 v → s.classifier.commitPending = false → 17 < v.toNat % 32 →
      ∃ t, exec .shadowRuleWrite s = .next t ∧ frameRefused .invalid run s t ∧
        unchangedBut [.link] s t) ∧
    (∀ (c : ClassId) (w : Fin 4), NextWrite s run k 2 (4 * c.val + w.val) v →
      s.classifier.commitPending = false →
      ∃ t, exec .shadowClassWrite s = .next t ∧ commandRan k run [] s t ∧ waitFrame s t ∧
        t.cls c = { s.cls c with shadow := (s.cls c).shadow.write w.val v } ∧
        (∀ d : ClassId, d ≠ c → t.cls d = s.cls d) ∧
        t.admission = { s.admission with classes := t.admission.classes } ∧
        unchangedBut [.link, .admission] s t) ∧
    (∀ p : Nat, s.classifier.commitPending = true →
      (p ≤ 192 → NextWrite s run k 1 p v →
        ∃ t, exec .shadowRuleWrite s = .next t ∧ frameRefused .state run s t ∧
          unchangedBut [.link] s t) ∧
      (p < 64 → NextWrite s run k 2 p v →
        ∃ t, exec .shadowClassWrite s = .next t ∧ frameRefused .state run s t ∧
          unchangedBut [.link] s t))

/-- A valid rule fails validation with its base above its limit, or, with its length test present, its least
length above its greatest; a class with a limit outside 1..64, a quota above 128, or an enabled race with a
zero; a rule that is not valid passes. The validation of the shadow set finds nothing exactly when every
rule and every class passes, and otherwise names the first that fails, rules before classes, with its first
cause. -/
def Obligations.ValidationNamesFirstFailure : Prop :=
  (∀ q : Rule, q.check =
    if q.valid = false then none
    else if q.limitPage.toNat < q.basePage.toNat then some .baseAboveLimit
    else if q.lenPresent = true ∧ q.lenMax1.toNat < q.lenMin1.toNat then some .minAboveMax
    else none) ∧
  (∀ k : ClassSettings, k.check =
    if k.limit.toNat = 0 ∨ 64 < k.limit.toNat then some .limitRange
    else if 128 < k.quota.toNat then some .quotaRange
    else if k.raceEnable = true ∧ (k.quietTime.toNat = 0 ∨ k.activeBytes.toNat = 0) then some .raceZero
    else none) ∧
  ∀ s : State,
    (s.validate = .none ↔ (∀ i : Fin 48, (s.classifier.shadow.rules[i]).check = none) ∧
      ∀ c : ClassId, ((s.cls c).shadow).check = none) ∧
    (∀ (i : Fin 48) (e : RuleCause), s.validate = .rule i e ↔
      (s.classifier.shadow.rules[i]).check = some e ∧
        ∀ j : Fin 48, j < i → (s.classifier.shadow.rules[j]).check = none) ∧
    (∀ (c : ClassId) (e : ClassCause), s.validate = .cls c e ↔
      (∀ i : Fin 48, (s.classifier.shadow.rules[i]).check = none) ∧
        ((s.cls c).shadow).check = some e ∧ ∀ d : ClassId, d < c → ((s.cls d).shadow).check = none)

/-- COMMIT in IDLE: a set that passes validation makes the commit PENDING and clears the fault item; a set
that fails is refused INVALID and sets the fault item. WITHDRAW returns to IDLE and applies nothing. -/
def Obligations.CommitAndWithdraw : Prop :=
  ∀ (run : Run) (k : Cmd) (v : Word) (s : State),
    (NextWrite s run k 6 6 v → s.classifier.commitPending = false → s.validate = .none →
      ∃ t, exec .commit s = .next t ∧ commandRan k run [] s t ∧ waitFrame s t ∧
        t.classifier = { s.classifier with commitPending := true, fault := .none } ∧
        unchangedBut [.link, .classifier] s t) ∧
    (NextWrite s run k 6 6 v → s.classifier.commitPending = false → s.validate ≠ .none →
      ∃ t, exec .commit s = .next t ∧ frameRefused .invalid run s t ∧
        t.classifier = { s.classifier with fault := s.validate } ∧
        unchangedBut [.link, .classifier] s t) ∧
    (NextWrite s run k 6 7 v →
      ∃ t, exec .withdraw s = .next t ∧ commandRan k run [] s t ∧ waitFrame s t ∧
        t.classifier = { s.classifier with commitPending := false } ∧
        unchangedBut [.link, .classifier] s t)

/-- COMMIT in PENDING is refused STATE, and nothing but the frame's reply changes. -/
def Obligations.PendingCommitRefusesCommit : Prop :=
  ∀ (run : Run) (k : Cmd) (v : Word) (s : State), NextWrite s run k 6 6 v →
    s.classifier.commitPending = true →
    ∃ t, exec .commit s = .next t ∧ frameRefused .state run s t ∧ unchangedBut [.link] s t

/-! ### Writes of the control panel -/

/-- REFILL_PERIOD_WRITE restarts the schedule at the write; PASS_RESERVE_WRITE starts release evaluation when
it lowers the reserve and sets the reasons when it raises it; each is refused INVALID out of its range. -/
def Obligations.PeriodAndReserveWrites : Prop :=
  ∀ (run : Run) (k : Cmd) (v : Word) (s : State),
    (NextWrite s run k 6 10 v → 1 ≤ v.toNat → v.toNat ≤ 4096 →
      ∃ t, exec .refillPeriodWrite s = .next t ∧ commandRan k run [] s t ∧ waitFrame s t ∧
        t.admission = { s.admission with refillPeriod := v.toNat, refillStart := s.control.time } ∧
        unchangedBut [.link, .admission] s t) ∧
    (NextWrite s run k 6 10 v → v.toNat = 0 ∨ 4096 < v.toNat →
      ∃ t, exec .refillPeriodWrite s = .next t ∧ frameRefused .invalid run s t ∧
        unchangedBut [.link] s t) ∧
    (NextWrite s run k 6 12 v → v.toNat ≤ 16 →
      ∃ t, exec .passReserveWrite s = .next t ∧ commandRan k run [] s t ∧ waitFrame s t ∧
        t.table = { s.table with passReserve := v.toNat } ∧
        (∀ c : ClassId, t.cls c = { s.cls c with
          reason := if s.table.passReserve < v.toNat ∧ (s.cls c).queue ≠ [] then t.headReason c
            else (s.cls c).reason }) ∧
        t.admission = { s.admission with
          classes := t.admission.classes,
          evalRunning := if v.toNat < s.table.passReserve then true else s.admission.evalRunning,
          retryNotices := if v.toNat < s.table.passReserve then s.admission.retryNotices + 1
            else s.admission.retryNotices } ∧
        unchangedBut [.link, .table, .admission] s t) ∧
    (NextWrite s run k 6 12 v → 16 < v.toNat →
      ∃ t, exec .passReserveWrite s = .next t ∧ frameRefused .invalid run s t ∧
        unchangedBut [.link] s t)

/-- POOL_LEVEL_WRITE holds the level to the cap; POOL_CAP_WRITE brings the level down to a lower cap and is
refused INVALID above 65535. A rise of the level starts release evaluation and a fall sets the reasons. -/
def Obligations.PoolWritesHoldLevelToCap : Prop :=
  ∀ (run : Run) (k : Cmd) (v : Word) (s : State),
    (NextWrite s run k 6 14 v →
      ∃ t, exec .poolLevelWrite s = .next t ∧ commandRan k run [] s t ∧ waitFrame s t ∧
        (let n := min v.toNat s.admission.poolCap
        (∀ c : ClassId, t.cls c = { s.cls c with
          reason := if n < s.admission.poolLevel ∧ (s.cls c).queue ≠ [] then t.headReason c
            else (s.cls c).reason }) ∧
        t.admission = { s.admission with
          classes := t.admission.classes, poolLevel := n,
          evalRunning := if s.admission.poolLevel < n then true else s.admission.evalRunning,
          retryNotices := if s.admission.poolLevel < n then s.admission.retryNotices + 1
            else s.admission.retryNotices }) ∧
        unchangedBut [.link, .admission] s t) ∧
    (NextWrite s run k 6 13 v → v.toNat ≤ 65535 →
      ∃ t, exec .poolCapWrite s = .next t ∧ commandRan k run [] s t ∧ waitFrame s t ∧
        (∀ c : ClassId, t.cls c = { s.cls c with
          reason := if v.toNat < s.admission.poolLevel ∧ (s.cls c).queue ≠ [] then t.headReason c
            else (s.cls c).reason }) ∧
        t.admission = { s.admission with
          classes := t.admission.classes, poolCap := v.toNat,
          poolLevel := min s.admission.poolLevel v.toNat } ∧
        unchangedBut [.link, .admission] s t) ∧
    (NextWrite s run k 6 13 v → 65535 < v.toNat →
      ∃ t, exec .poolCapWrite s = .next t ∧ frameRefused .invalid run s t ∧ unchangedBut [.link] s t)

/-- AGE_LIMIT_WRITE: within the write every request that has reached the new nonzero limit expires, wherever
it stands, and every other one stays. Exactly these requests are answered EXPIRED, each once, the held ones
in class order and oldest first and the table's in index order; EXPIRED is raised when there is one,
ABANDONED when one was ISSUED, and no flag is cleared; each class's expired tally rises by its aged requests
and its outstanding count falls by those in the table; evaluation starts for an aged head or an entry's
expiry; the capture unit is offered their records and sources in the order of the answers. The order among
the intake, the held requests and the table is open (a free value, notes/assumptions/7.md), and the count of
notices is the model's (notes/assumptions/5.md). -/
def Obligations.AgeLimitWriteExpiresAllAged : Prop :=
  ∀ (run : Run) (k : Cmd) (v : Word) (s : State),
    (NextWrite s run k 6 11 v → v.toNat ≤ 65535 →
      ∃ t, exec .ageLimitWrite s = .next t ∧ commandRan k run [] s t ∧ waitFrame s t ∧
        (let aged (r : Req) : Bool := decide (v.toNat ≠ 0 ∧ v.toNat ≤ (s.control.time - r.stamp).toNat)
        (∀ (r : Req) (w : WaitReason), s.intake = .waiting r w →
          t.intake = if aged r = true then .empty else s.intake) ∧
        (s.intake = .empty → t.intake = .empty) ∧
        (∀ c : ClassId, t.cls c = { s.cls c with
          queue := (s.cls c).queue.filter (fun r => !aged r),
          outstanding := (s.cls c).outstanding - s.table.entries.toList.countP (fun e =>
            match e with
            | .queued r _ => aged r && r.traffic == .cls c
            | .issued r _ => aged r && r.traffic == .cls c
            | .abandoned _ _ => false
            | .free => false),
          reason := (t.cls c).reason } ∧
          ((∀ r : Req, (s.cls c).queue.head? = some r → aged r = false) →
            (t.cls c).reason = (s.cls c).reason) ∧
          ((s.cls c).queue ≠ [] → (t.cls c).queue = [] → (t.cls c).reason = .none)) ∧
        t.admission = { s.admission with
          classes := t.admission.classes, evalRunning := t.admission.evalRunning,
          retryNotices := s.admission.retryNotices + ((s.standingAged aged).map expiryNotices).sum } ∧
        (t.admission.evalRunning = true ↔ s.admission.evalRunning = true ∨
          (∃ (c : ClassId) (r : Req), (s.cls c).queue.head? = some r ∧ aged r = true) ∨
          ∃ x ∈ s.standingAged aged, x.2 = .queued ∨ (x.2 = .issued ∧ x.1.traffic ≠ .pass)) ∧
        (∀ i : EntryId, t.table.entries[i] = match s.table.entries[i] with
          | .queued r b => if aged r = true then .free else .queued r b
          | .issued r b => if aged r = true then .abandoned r b else .issued r b
          | .abandoned r b => .abandoned r b
          | .free => .free) ∧
        t.table = { s.table with
          entries := t.table.entries, ageLimit := v.toNat,
          issueQ := s.table.issueQ.filter (fun i => match s.table.entries[i] with
            | .queued r _ => !aged r
            | .issued _ _ => true
            | .abandoned _ _ => true
            | .free => true) } ∧
        (∀ c : ClassId, t.gauge.tallies[c] = { s.gauge.tallies[c] with
          expired := s.gauge.tallies[c].expired +
            BitVec.ofNat 32 ((s.standingAged aged).countP (fun x => x.1.traffic == .cls c)) }) ∧
        t.gauge = { s.gauge with tallies := t.gauge.tallies } ∧
        t.control = (raiseAll ((if s.standingAged aged = [] then [] else [.expired]) ++
          (if ∃ x ∈ s.standingAged aged, x.2 = .issued then [.abandoned] else []) ++
          (if s.capture.state = .armed ∧ t.capture.state ≠ .armed then [.captureTriggered] else []) ++
          (if s.capture.state ≠ .done ∧ t.capture.state = .done then [.captureDone] else [])) s).control ∧
        ∃ l : List (Req × ExpiredAt), l.Perm (s.standingAged aged) ∧
          l.filter (fun x => x.2 == .held) = (s.standingAged aged).filter (fun x => x.2 == .held) ∧
          l.filter (fun x => x.2 == .queued || x.2 == .issued) =
            (s.standingAged aged).filter (fun x => x.2 == .queued || x.2 == .issued) ∧
          t.answers = s.answers ++ l.map (fun x =>
            { source := x.1.source, tag := x.1.tag, status := .expired, data := [] }) ∧
          t.capture = l.foldl (fun c x => (c.offer
            { kind := .expired x.2, stamp := s.control.time, body := x.1.body }).trigger .expired
              s.control.time x.1.body) s.capture) ∧
        unchangedBut [.link, .control, .intake, .admission, .table, .gauge, .capture, .answers,
          .freePicks] s t) ∧
    (NextWrite s run k 6 11 v → 65535 < v.toNat →
      ∃ t, exec .ageLimitWrite s = .next t ∧ frameRefused .invalid run s t ∧ unchangedBut [.link] s t)

/-- SWEEP frees every ABANDONED entry and touches no other, answers nothing, counts itself and raises SWEPT.
The count of notices, one for each entry, is the model's (notes/assumptions/5.md). -/
def Obligations.SweepFreesAbandonedEntries : Prop :=
  ∀ (run : Run) (k : Cmd) (v : Word) (s : State), NextWrite s run k 6 17 v →
    ∃ t, exec .sweep s = .next t ∧ commandRan k run [] s t ∧ waitFrame s t ∧
      (∀ i : EntryId, t.table.entries[i] = if (s.table.entries[i]).isAbandoned = true then .free
        else s.table.entries[i]) ∧
      t.table = { s.table with entries := t.table.entries } ∧
      t.admission = { s.admission with
        evalRunning := s.admission.evalRunning || decide (∃ i : EntryId,
          (s.table.entries[i]).isAbandoned = true),
        retryNotices := s.admission.retryNotices + s.table.entries.toList.countP Entry.isAbandoned } ∧
      t.gauge = { s.gauge with sweeps := s.gauge.sweeps + 1 } ∧ raised [.swept] s t ∧
      unchangedBut [.link, .control, .admission, .table, .gauge] s t

/-- REGULATOR_RESTART: what each block restarts and what it keeps. The count of notices is the model's
(notes/assumptions/5.md). -/
def Obligations.RegulatorRestartBlockByBlock : Prop :=
  ∀ (run : Run) (k : Cmd) (v : Word) (s : State), NextWrite s run k 6 16 v →
    ∃ t, exec .regulatorRestart s = .next t ∧ commandRan k run [] s t ∧ waitFrame s t ∧
      t.classifier = { s.classifier with commitPending := false } ∧
      (∀ c : ClassId, t.cls c = { s.cls c with
        credit := ((s.cls c).active.cap.toNat : Int), queue := [], reason := .none, quiet := .active,
        raceTime := 0, raceBytes := 0 }) ∧
      t.admission = { s.admission with
        classes := t.admission.classes, poolLevel := 0, pointers := Vector.replicate 4 15,
        retryNotices := s.admission.retryNotices + 1 } ∧
      t.answers = s.answers ++ (List.finRange 16).flatMap (fun c => (s.cls c).queue.map (fun r =>
        { source := r.source, tag := r.tag, status := .bounce, data := [] })) ∧
      (∀ c : ClassId, t.gauge.tallies[c] = Tallies.zero) ∧
      t.gauge.denied = 0 ∧ t.gauge.passAdmitted = 0 ∧ t.gauge.passCompleted = 0 ∧ t.gauge.orphans = 0 ∧
      t.gauge.sweeps = 0 ∧
      (∀ g : GaugeId, t.gauge.gauges[g] = { s.gauge.gauges[g] with
        a := 0, b := 0, start := s.control.time, acc := 0, latch := 0, wrapped := false } ∧
        t.gauge.monitors[g] = { settings := (s.gauge.monitors[g]).settings, live := MonLive.start,
                                overWindows := 0, underWindows := 0 }) ∧
      t.capture = { s.capture with state := .idle, buffer := [], preHeld := 0, postAppended := 0,
                                   dropped := 0, wordPos := 0 } ∧
      t.control = (raiseAll (if 0 < s.heldTotal then [.bounced] else []) s).control ∧
      unchangedBut [.link, .control, .classifier, .admission, .gauge, .capture, .answers] s t

/-- EVENT_FLAG_CLEAR clears exactly the flags whose bit is written 1; ENABLE_MASK_WRITE sets a mask to the
bits that name flags. Neither is refused. The two control settings that have no command of their own, the
await word-1 mask and the await limit, are set by REGISTER_WRITE (notes/assumptions/20.md), a limit above
65535 being refused INVALID, and LINK_COUNTER_CLEAR sets the six link counters to 0. -/
def Obligations.FlagMaskAndLinkWrites : Prop :=
  (∀ (run : Run) (k : Cmd) (v : Word) (s : State),
    (NextWrite s run k 6 0 v →
      ∃ t, exec .eventFlagClear s = .next t ∧ commandRan k run [] s t ∧ waitFrame s t ∧
        t.control = { s.control with flags0 := t.control.flags0 } ∧
        (∀ j < 16, t.control.flags0.getLsbD j = (s.control.flags0.getLsbD j && !v.getLsbD j)) ∧
        unchangedBut [.link, .control] s t) ∧
    (NextWrite s run k 6 1 v →
      ∃ t, exec .eventFlagClear s = .next t ∧ commandRan k run [] s t ∧ waitFrame s t ∧
        t.control = { s.control with flags1 := t.control.flags1 } ∧
        (∀ j < 16, t.control.flags1.getLsbD j = (s.control.flags1.getLsbD j && !v.getLsbD j)) ∧
        unchangedBut [.link, .control] s t) ∧
    (NextWrite s run k 6 2 v →
      ∃ t, exec .enableMaskWrite s = .next t ∧ commandRan k run [] s t ∧ waitFrame s t ∧
        t.control = { s.control with mask0 := BitVec.ofNat 16 v.toNat } ∧
        unchangedBut [.link, .control] s t) ∧
    (NextWrite s run k 6 3 v →
      ∃ t, exec .enableMaskWrite s = .next t ∧ commandRan k run [] s t ∧ waitFrame s t ∧
        t.control = { s.control with mask1 := BitVec.ofNat 16 v.toNat } ∧
        unchangedBut [.link, .control] s t)) ∧
  (∀ (run : Run) (k : Cmd) (v : Word) (s : State),
    (NextWrite s run k 6 19 v →
      ∃ t, exec .registerWrite s = .next t ∧ commandRan k run [] s t ∧ unchangedBut [.link] s t ∧
        t.link.awaitMask1 = BitVec.ofNat 16 v.toNat ∧
        (t.link.sel, t.link.counters, t.link.wait, t.link.awaitLimit, t.link.awaitTime, t.link.awaitWay) =
          (s.link.sel, s.link.counters, s.link.wait, s.link.awaitLimit, s.link.awaitTime,
            s.link.awaitWay)) ∧
    (NextWrite s run k 6 20 v → v.toNat ≤ 65535 →
      ∃ t, exec .registerWrite s = .next t ∧ commandRan k run [] s t ∧ unchangedBut [.link] s t ∧
        t.link.awaitLimit = v.toNat ∧
        (t.link.sel, t.link.counters, t.link.wait, t.link.awaitMask1, t.link.awaitTime, t.link.awaitWay) =
          (s.link.sel, s.link.counters, s.link.wait, s.link.awaitMask1, s.link.awaitTime,
            s.link.awaitWay)) ∧
    (NextWrite s run k 6 20 v → 65535 < v.toNat →
      ∃ t, exec .registerWrite s = .next t ∧ frameRefused .invalid run s t ∧ unchangedBut [.link] s t) ∧
    (NextWrite s run k 6 29 v →
      ∃ t, exec .linkCounterClear s = .next t ∧ commandRan k run [] s t ∧ unchangedBut [.link] s t ∧
        t.link.counters = LinkCounters.zero ∧
        (t.link.sel, t.link.wait, t.link.awaitMask1, t.link.awaitLimit, t.link.awaitTime, t.link.awaitWay) =
          (s.link.sel, s.link.wait, s.link.awaitMask1, s.link.awaitLimit, s.link.awaitTime,
            s.link.awaitWay)))

/-- AWAIT ends in the event of its write when a masked flag is set or the limit is 0, and begins otherwise;
DELAY begins, or ends at once for 0, and is refused INVALID above 65535. The elapse of a wait: an AWAIT ends
with its limit as the time and the way LIMIT, a DELAY without a result, and the frame goes on; before its
time neither has anything to end (notes/assumptions/1.md), and a late elapse still ends it
(notes/assumptions/15.md). -/
def Obligations.WaitsBeginAndElapse : Prop :=
  (∀ (run : Run) (k : Cmd) (v : Word) (s : State),
    (NextWrite s run k 6 18 v →
      ∃ t, exec .await s = .next t ∧ commandRan k run [] s t ∧ unchangedBut [.link] s t ∧
        (t.link.sel, t.link.counters, t.link.awaitMask1, t.link.awaitLimit) =
          (s.link.sel, s.link.counters, s.link.awaitMask1, s.link.awaitLimit) ∧
        (t.link.wait, t.link.awaitTime, t.link.awaitWay) =
          (if maskedFlagSet (BitVec.ofNat 16 v.toNat) s.link.awaitMask1 s = true
            then (.none, 0, .event)
          else if s.link.awaitLimit = 0 then (.none, 0, .limit)
          else (.await (BitVec.ofNat 16 v.toNat) s.control.time, s.link.awaitTime, s.link.awaitWay))) ∧
    (NextWrite s run k 6 22 v → v.toNat ≤ 65535 →
      ∃ t, exec .delay s = .next t ∧ commandRan k run [] s t ∧ unchangedBut [.link] s t ∧
        (t.link.sel, t.link.counters, t.link.awaitMask1, t.link.awaitLimit, t.link.awaitTime,
          t.link.awaitWay) =
          (s.link.sel, s.link.counters, s.link.awaitMask1, s.link.awaitLimit, s.link.awaitTime,
            s.link.awaitWay) ∧
        t.link.wait = (if v.toNat = 0 then .none else .delay v.toNat s.control.time)) ∧
    (NextWrite s run k 6 22 v → 65535 < v.toNat →
      ∃ t, exec .delay s = .next t ∧ frameRefused .invalid run s t ∧ unchangedBut [.link] s t)) ∧
  (∀ (run : Run) (since : Stamp) (s : State), s.control.resetHeld = false →
    s.link.state = .executing run →
    (∀ m0 : BitVec 16, s.link.wait = .await m0 since →
      (s.link.awaitLimit ≤ (s.control.time - since).toNat →
        ∃ t, exec .awaitLimitElapse s = .next t ∧
          waitEnded run s.link.awaitLimit .limit s t ∧ unchangedBut [.link] s t) ∧
      ((s.control.time - since).toNat < s.link.awaitLimit → exec .awaitLimitElapse s = .next s)) ∧
    (∀ n : Nat, s.link.wait = .delay n since →
      (n ≤ (s.control.time - since).toNat →
        ∃ t, exec .delayElapse s = .next t ∧
          waitEnded run s.link.awaitTime s.link.awaitWay s t ∧ unchangedBut [.link] s t) ∧
      ((s.control.time - since).toNat < n → exec .delayElapse s = .next s)))

/-! ### Writes of the gauge block and of the capture unit -/

/-- The clear items of the gauge block: a class's thirteen tallies, the five global tallies, a gauge's
accumulator with its latch and indicator, a monitor's durations; each leaves everything else alone. -/
def Obligations.GaugeBlockClears : Prop :=
  ∀ (c : ClassId) (g : GaugeId) (run : Run) (k : Cmd) (v : Word) (s : State),
    (NextWrite s run k 3 (32 * c.val + 17) v →
      ∃ t, exec .classTallyClear s = .next t ∧ commandRan k run [] s t ∧ waitFrame s t ∧
        t.gauge = { s.gauge with tallies := s.gauge.tallies.set c Tallies.zero c.isLt } ∧
        unchangedBut [.link, .gauge] s t) ∧
    (NextWrite s run k 3 520 v →
      ∃ t, exec .globalTallyClear s = .next t ∧ commandRan k run [] s t ∧ waitFrame s t ∧
        t.gauge = { s.gauge with denied := 0, passAdmitted := 0, passCompleted := 0, orphans := 0,
                                 sweeps := 0 } ∧
        unchangedBut [.link, .gauge] s t) ∧
    (NextWrite s run k 4 (16 * g.val + 5) v →
      ∃ t, exec .accumulatorClear s = .next t ∧ commandRan k run [] s t ∧ waitFrame s t ∧
        t.gauge = { s.gauge with
          gauges := s.gauge.gauges.set g { s.gauge.gauges[g] with acc := 0, latch := 0, wrapped := false }
            g.isLt } ∧
        unchangedBut [.link, .gauge] s t) ∧
    (NextWrite s run k 4 (16 * g.val + 14) v →
      ∃ t, exec .durationClear s = .next t ∧ commandRan k run [] s t ∧ waitFrame s t ∧
        t.gauge = { s.gauge with
          monitors := s.gauge.monitors.set g
            { s.gauge.monitors[g] with overWindows := 0, underWindows := 0 } g.isLt } ∧
        unchangedBut [.link, .gauge] s t)

/-- Which values are INVALID for a gauge's and a monitor's settings: an input code above 18, a quantity code
above 5, a period of 0; a window of 0, a Nh or Nl of 255, an Mh, Ml or Mc of 0; and an upper threshold not
above the lower one. An accepted write of a gauge's settings restarts the gauge's period and its monitor and
keeps the accumulator; one of a monitor's settings restarts the monitor alone; a refused one restarts
nothing. -/
def Obligations.GaugeAndMonitorWritesRestart : Prop :=
  (∀ (q : GaugeSettings) (w : Fin 2) (v : Word), q.write w.val v = none ↔
    (w = 0 ∧ (18 < (v.extractLsb' 8 5).toNat ∨ 18 < (v.extractLsb' 16 5).toNat ∨
      5 < (v.extractLsb' 24 3).toNat)) ∨ (w = 1 ∧ v.extractLsb' 0 16 = 0)) ∧
  (∀ (q : MonSettings) (w : Fin 4) (v : Word), q.write (6 + w.val) v = none ↔
    (w = 0 ∧ (v.extractLsb' 8 8 = 0 ∨ v.extractLsb' 16 8 = 255 ∨ v.extractLsb' 24 8 = 255)) ∨
    (w = 1 ∧ (v.extractLsb' 0 8 = 0 ∨ v.extractLsb' 8 8 = 0 ∨ v.extractLsb' 16 8 = 0))) ∧
  ∀ (g : GaugeId) (run : Run) (k : Cmd) (v : Word) (s : State),
    (∀ (w : Fin 2) (q : GaugeSettings), NextWrite s run k 4 (16 * g.val + w.val) v →
      (s.gauge.gauges[g]).settings.write w.val v = some q →
      ∃ t, exec .gaugeSettingsWrite s = .next t ∧ commandRan k run [] s t ∧ waitFrame s t ∧
        t.gauge = { s.gauge with
          gauges := s.gauge.gauges.set g
            { s.gauge.gauges[g] with settings := q, a := 0, b := 0, start := s.control.time } g.isLt,
          monitors := s.gauge.monitors.set g
            { s.gauge.monitors[g] with live := MonLive.start } g.isLt } ∧
        unchangedBut [.link, .gauge] s t) ∧
    (∀ w : Fin 2, NextWrite s run k 4 (16 * g.val + w.val) v →
      (s.gauge.gauges[g]).settings.write w.val v = none →
      ∃ t, exec .gaugeSettingsWrite s = .next t ∧ frameRefused .invalid run s t ∧
        unchangedBut [.link] s t) ∧
    (∀ (w : Fin 4) (q : MonSettings), NextWrite s run k 4 (16 * g.val + 6 + w.val) v →
      (s.gauge.monitors[g]).settings.write (6 + w.val) v = some q →
      (2 ≤ w.val → q.lower.toInt < q.upper.toInt) →
      ∃ t, exec .monitorSettingsWrite s = .next t ∧ commandRan k run [] s t ∧ waitFrame s t ∧
        t.gauge = { s.gauge with
          monitors := s.gauge.monitors.set g
            { s.gauge.monitors[g] with settings := q, live := MonLive.start } g.isLt } ∧
        unchangedBut [.link, .gauge] s t) ∧
    (∀ (w : Fin 4), NextWrite s run k 4 (16 * g.val + 6 + w.val) v →
      (∀ q : MonSettings, (s.gauge.monitors[g]).settings.write (6 + w.val) v = some q →
        2 ≤ w.val ∧ q.upper.toInt ≤ q.lower.toInt) →
      ∃ t, exec .monitorSettingsWrite s = .next t ∧ frameRefused .invalid run s t ∧
        unchangedBut [.link] s t)

/-- CAPTURE_SETTINGS_WRITE in IDLE and DONE; ARM discards the buffer and starts a capture whose K + N + 1
fits; TRIGGER in ARMED writes the MARK; STOP ends a capture under way and does nothing in IDLE and DONE; and
where each of the others is refused: the settings STATE in ARMED and TRIGGERED, and INVALID for K above 511
and N outside 1..511; ARM STATE in ARMED and TRIGGERED, and INVALID when the records do not fit; TRIGGER
STATE outside ARMED. -/
def Obligations.CaptureCommands : Prop :=
  (∀ (q : CapSettings) (w : Fin 5) (v : Word), q.write w.val v = none ↔
    (w = 0 ∧ 511 < v.toNat) ∨ (w = 1 ∧ (v.toNat = 0 ∨ 511 < v.toNat))) ∧
  ∀ (run : Run) (k : Cmd) (v : Word) (s : State),
    (∀ (w : Fin 5) (q : CapSettings), NextWrite s run k 5 w.val v →
      s.capture.state = .idle ∨ s.capture.state = .done → s.capture.settings.write w.val v = some q →
      ∃ t, exec .captureSettingsWrite s = .next t ∧ commandRan k run [] s t ∧ waitFrame s t ∧
        t.capture = { s.capture with settings := q } ∧ unchangedBut [.link, .capture] s t) ∧
    (∀ w : Fin 5, NextWrite s run k 5 w.val v → s.capture.state = .idle ∨ s.capture.state = .done →
      s.capture.settings.write w.val v = none →
      ∃ t, exec .captureSettingsWrite s = .next t ∧ frameRefused .invalid run s t ∧
        unchangedBut [.link] s t) ∧
    (∀ w : Fin 5, NextWrite s run k 5 w.val v → s.capture.state = .armed ∨ s.capture.state = .triggered →
      ∃ t, exec .captureSettingsWrite s = .next t ∧ frameRefused .state run s t ∧
        unchangedBut [.link] s t) ∧
    (NextWrite s run k 5 8 v → s.capture.state = .idle ∨ s.capture.state = .done →
      s.capture.settings.preCount + s.capture.settings.postCount + 1 ≤ 512 →
      ∃ t, exec .arm s = .next t ∧ commandRan k run [] s t ∧ waitFrame s t ∧
        t.capture = { settings := s.capture.settings, state := .armed, buffer := [], preHeld := 0,
                      postAppended := 0, dropped := 0, wordPos := 0 } ∧
        unchangedBut [.link, .capture] s t) ∧
    (NextWrite s run k 5 8 v → s.capture.state = .idle ∨ s.capture.state = .done →
      512 < s.capture.settings.preCount + s.capture.settings.postCount + 1 →
      ∃ t, exec .arm s = .next t ∧ frameRefused .invalid run s t ∧ unchangedBut [.link] s t) ∧
    (NextWrite s run k 5 8 v → s.capture.state = .armed ∨ s.capture.state = .triggered →
      ∃ t, exec .arm s = .next t ∧ frameRefused .state run s t ∧ unchangedBut [.link] s t) ∧
    (NextWrite s run k 5 9 v → s.capture.state = .armed →
      ∃ t, exec .trigger s = .next t ∧ commandRan k run [] s t ∧ waitFrame s t ∧
        t.capture = { s.capture with
          buffer := s.capture.buffer ++
            [{ kind := .mark .command, stamp := s.control.time, body := RecBody.zero }],
          state := .triggered, postAppended := 0 } ∧
        raised [] s t ∧ unchangedBut [.link, .capture, .control] s t) ∧
    (NextWrite s run k 5 9 v → s.capture.state ≠ .armed →
      ∃ t, exec .trigger s = .next t ∧ frameRefused .state run s t ∧ unchangedBut [.link] s t) ∧
    (NextWrite s run k 5 10 v → s.capture.state = .armed ∨ s.capture.state = .triggered →
      ∃ t, exec .stop s = .next t ∧ commandRan k run [] s t ∧ waitFrame s t ∧
        t.capture = { s.capture with state := .done } ∧
        t.control = (raise .captureDone s).control ∧ unchangedBut [.link, .capture, .control] s t) ∧
    (NextWrite s run k 5 10 v → s.capture.state = .idle ∨ s.capture.state = .done →
      ∃ t, exec .stop s = .next t ∧ commandRan k run [] s t ∧ waitFrame s t ∧ unchangedBut [.link] s t)

/-! ### Encodings -/

/-- The bytes of a frame spell the frame: sequence, body and CRC come back, whatever follows. -/
def Obligations.FrameBytesRoundTrip : Prop :=
  ∀ (f : Frame) (more : List Byte), f.body.length < 65536 → parseFrame (f.bytes ++ more) = some f

/-- The bytes of a write or a read command spell the command: panel, position, step, count and every element
come back, and the body goes on after it. A body of fewer than two bytes has no header, and from two on the
header's fields are read from their bits. A command is not whole exactly when its count is 0, its announced
position is missing or cut, or its write data is shorter than its count. -/
def Obligations.CommandBytesRoundTrip : Prop :=
  (∀ (panel : Fin 8) (pos : Option (BitVec 16)) (step : Bool) (ws : List Word) (more : List Byte),
    ws ≠ [] → ws.length ≤ 127 →
    parseCmd (writeBytes panel pos step ws ++ more) = some
      { write := true, posFlag := pos.isSome, panel := panel, step := step, count := ws.length, pos := pos,
        words := ws, whole := true, rest := more }) ∧
  (∀ (panel : Fin 8) (pos : Option (BitVec 16)) (step : Bool) (count : BitVec 7) (more : List Byte),
    count ≠ 0 →
    parseCmd (readBytes panel pos step count ++ more) = some
      { write := false, posFlag := pos.isSome, panel := panel, step := step, count := count.toNat,
        pos := pos, words := [], whole := true, rest := more }) ∧
  (∀ body : List Byte, parseCmd body = none ↔ body.length < 2) ∧
  ∀ (h0 h1 : Byte) (rest : List Byte), ∃ k, parseCmd (h0 :: h1 :: rest) = some k ∧
    k.write = h1.getLsbD 7 ∧ k.posFlag = h1.getLsbD 6 ∧ k.panel.val = h1.toNat / 8 % 8 ∧
    k.step = h1.getLsbD 2 ∧ k.count = h0.toNat % 128 ∧
    (k.whole = false ↔ k.count = 0 ∨ (k.posFlag = true ∧ rest.length < 2) ∨
      (k.write = true ∧ rest.length < (if k.posFlag = true then 2 else 0) + 4 * k.count))

/-- A setting element reads back what was written in the bits of its fields, and 0 in every other bit, and
the write leaves the other elements of its group alone. Each field of a rule, of a class's settings, of a
gauge's, of a monitor's and of the capture unit's stands in its own bits of its element, under its own code.
-/
def Obligations.SettingElementsReadBack : Prop :=
  (let mask (w : Fin 4) : Word :=
    match w with | 0 => 0xFFFF1F0F#32 | 1 => 0x0FFFFFFF#32 | 2 => 0x0FFFFFFF#32 | 3 => 0x00FFFF01#32
  (∀ (k q : Rule) (w : Fin 4) (v : Word), k.write w.val v = some q →
    q.word w.val = v &&& mask w ∧ ∀ w' : Fin 4, w' ≠ w → q.word w'.val = k.word w'.val) ∧
  ∀ k : Rule, (∀ w : Fin 4, k.word w.val = k.word w.val &&& mask w) ∧
    [0, 1, 2, 3].map (k.word 0).getLsbD = [k.valid, k.kindRead, k.kindWrite, k.mark] ∧
    (k.word 0).extractLsb' 8 5 = (match k.result with
      | .cls c => BitVec.ofNat 5 c.val | .pass => 16#5 | .deny => 17#5) ∧
    (k.word 0).extractLsb' 16 8 = k.srcValue ∧ (k.word 0).extractLsb' 24 8 = k.srcMask ∧
    (k.word 1).extractLsb' 0 28 = k.basePage ∧ (k.word 2).extractLsb' 0 28 = k.limitPage ∧
    (k.word 3).getLsbD 0 = k.lenPresent ∧ (k.word 3).extractLsb' 8 8 = k.lenMin1 ∧
    (k.word 3).extractLsb' 16 8 = k.lenMax1) ∧
  (let mask (w : Fin 4) : Word :=
    match w with | 0 => 0xFFFFFFFF#32 | 1 => 0x007FFF7F#32 | 2 => 0x00FFFFFF#32 | 3 => 0x00FFFFFF#32
  (∀ (k : ClassSettings) (w : Fin 4) (v : Word),
    (k.write w.val v).word w.val = v &&& mask w ∧
      ∀ w' : Fin 4, w' ≠ w → (k.write w.val v).word w'.val = k.word w'.val) ∧
  ∀ k : ClassSettings, (∀ w : Fin 4, k.word w.val = k.word w.val &&& mask w) ∧
    (k.word 0).extractLsb' 0 16 = k.refillRate ∧ (k.word 0).extractLsb' 16 16 = k.cap ∧
    (k.word 1).extractLsb' 0 7 = k.limit ∧ (k.word 1).extractLsb' 8 8 = k.quota ∧
    ((k.word 1).getLsbD 16 = true ↔ k.mode = .openMode) ∧
    ((k.word 1).getLsbD 17 = true ↔ k.policy = .bounce) ∧
    (k.word 1).extractLsb' 18 2 = BitVec.ofFin k.priority ∧
    [20, 21, 22].map (k.word 1).getLsbD = [k.raceEnable, k.lend, k.borrow] ∧
    (k.word 2).extractLsb' 0 24 = k.quietTime ∧ (k.word 3).extractLsb' 0 24 = k.activeBytes) ∧
  (let mask (w : Fin 2) : Word := match w with | 0 => 0xF71F1F01#32 | 1 => 0x0000FFFF#32
  let input (i : Input) : BitVec 5 := match i with
    | .cls c => BitVec.ofNat 5 c.val | .pass => 16#5 | .all => 17#5 | .none => 18#5
  (∀ (k q : GaugeSettings) (w : Fin 2) (v : Word), k.write w.val v = some q →
    q.word w.val = v &&& mask w ∧ ∀ w' : Fin 2, w' ≠ w → q.word w'.val = k.word w'.val) ∧
  ∀ k : GaugeSettings, (∀ w : Fin 2, k.word w.val = k.word w.val &&& mask w) ∧
    (k.word 0).getLsbD 0 = k.enable ∧ (k.word 0).extractLsb' 8 5 = input k.inA ∧
    (k.word 0).extractLsb' 16 5 = input k.inB ∧
    (k.word 0).extractLsb' 24 3 = (match k.quantity with
      | .readBytes => 0#3 | .writeBytes => 1#3 | .allBytes => 2#3 | .admissions => 3#3 | .bounces => 4#3
      | .heldLevel => 5#3) ∧
    (k.word 0).extractLsb' 28 2 = (match k.combine with
      | .a => 0#2 | .b => 1#2 | .aPlusB => 2#2 | .aMinusB => 3#2) ∧
    (k.word 0).extractLsb' 30 2 = (match k.sign with
      | .positive => 0#2 | .negative => 1#2 | .signed => 2#2 | .magnitude => 3#2) ∧
    (k.word 1).extractLsb' 0 16 = k.period) ∧
  (let mask (w : Fin 4) : Word :=
    match w with | 0 => 0xFFFFFF01#32 | 1 => 0x00FFFFFF#32 | 2 => 0xFFFFFFFF#32 | 3 => 0xFFFFFFFF#32
  (∀ (k q : MonSettings) (w : Fin 4) (v : Word), k.write (6 + w.val) v = some q →
    q.word (6 + w.val) = v &&& mask w ∧
      ∀ w' : Fin 4, w' ≠ w → q.word (6 + w'.val) = k.word (6 + w'.val)) ∧
  ∀ k : MonSettings, (∀ w : Fin 4, k.word (6 + w.val) = k.word (6 + w.val) &&& mask w) ∧
    (k.word 6).getLsbD 0 = k.enable ∧
    [8, 16, 24].map (fun b => (k.word 6).extractLsb' b 8) = [k.window, k.nh, k.nl] ∧
    [0, 8, 16].map (fun b => (k.word 7).extractLsb' b 8) = [k.mh, k.ml, k.mc] ∧
    k.word 8 = k.upper ∧ k.word 9 = k.lower) ∧
  (let mask (w : Fin 5) : Word :=
    match w with
    | 0 => 0xFFFFFFFF#32 | 1 => 0xFFFFFFFF#32 | 2 => 0x0000017F#32 | 3 => 0x0001FFFF#32 | 4 => 0x00FFFF07#32
  (∀ (k q : CapSettings) (w : Fin 5) (v : Word), k.write w.val v = some q →
    q.word w.val = v &&& mask w ∧ ∀ w' : Fin 5, w' ≠ w → q.word w'.val = k.word w'.val) ∧
  ∀ k : CapSettings, (∀ w : Fin 5, k.word w.val = k.word w.val &&& mask w) ∧
    k.word 0 = BitVec.ofNat 32 k.preCount ∧ k.word 1 = BitVec.ofNat 32 k.postCount ∧
    (k.word 2).extractLsb' 0 7 = k.kindSet ∧ (k.word 2).getLsbD 8 = k.markedOnly ∧
    (k.word 3).extractLsb' 0 17 = k.classMask ∧ (k.word 4).extractLsb' 0 3 = k.trigAnswers ∧
    (k.word 4).extractLsb' 8 8 = k.trigOver ∧ (k.word 4).extractLsb' 16 8 = k.trigUnder)

/-! ### Invariants that every step keeps -/

/-- State.reset has every invariant below. -/
def Obligations.ResetHasEveryInvariant : Prop :=
  State.reset.issueQOk ∧ State.reset.outstandingOk ∧ State.reset.queuesOk ∧ State.reset.creditOk ∧
    State.reset.poolOk ∧ State.reset.holdOk ∧ State.reset.settingsOk ∧ State.reset.capture.ok ∧
    State.reset.waitOk ∧ State.reset.validOk ∧ State.reset.raceOk ∧ State.reset.gaugesOk ∧
    State.reset.monitorsOk ∧ State.reset.link.replyOk ∧ State.reset.silentOk

/-- Every step keeps the issue queue exact: each QUEUED entry once and no other, and each class's
outstanding count equal to its QUEUED and ISSUED entries. -/
def Obligations.StepKeepsQueueAndCounts : Prop :=
  ∀ s t : State, step s = .next t →
    (s.issueQOk → t.issueQOk) ∧ (s.outstandingOk → t.outstandingOk)

/-- Every step keeps at most 128 requests held, each in the queue of its class; credit within -255 and the
cap; the pool level within 0 and its cap; and the live settings in their ranges. -/
def Obligations.StepKeepsHoldCreditAndPool : Prop :=
  (∀ s t : State, step s = .next t → (s.holdOk → t.holdOk) ∧ (s.queuesOk → t.queuesOk)) ∧
  (∀ s t : State, step s = .next t →
    (s.creditOk → t.creditOk) ∧ (s.poolOk → t.poolOk) ∧ (s.settingsOk → t.settingsOk))

/-- Every step keeps the capture buffer within its bounds, with at most one MARK, and the gauges and monitors
in their ranges. -/
def Obligations.StepKeepsCaptureGaugesAndMonitors : Prop :=
  (∀ s t : State, step s = .next t → s.capture.ok → t.capture.ok) ∧
  (∀ s t : State, step s = .next t → (s.gaugesOk → t.gaugesOk) ∧ (s.monitorsOk → t.monitorsOk))

/-- Every step keeps the waits in order: no masked flag is set while an AWAIT runs, and only an EXECUTING
frame waits; a reply is stored whenever one waits to be fetched; and while RESET is held, or the SEL-low
period ignored in which it was released, the link is IDLE and waits for nothing. -/
def Obligations.StepKeepsWaitsAndReplies : Prop :=
  ∀ s t : State, step s = .next t → (s.waitOk → t.waitOk) ∧
    (s.waitOk → s.link.replyOk → t.link.replyOk) ∧ (s.silentOk → t.silentOk)

/-- Every step keeps what is in force validated, and a class without a race ACTIVE with counters at 0. -/
def Obligations.StepKeepsActiveSetValid : Prop :=
  ∀ s t : State, step s = .next t → (s.validOk → t.validOk) ∧ (s.raceOk → t.raceOk)
end

