-- ==== Sys2Proof/Laws/State.lean ====
section
/-! SUPPORT. One lemma per part of the state per update: what each primitive update leaves alone, and what it sets. -/

namespace Sys2Proof.Machine

/-! ### Flags -/

@[simp] theorem raise_intake (f : Flag) (s : State) : (raise f s).intake = s.intake := rfl
@[simp] theorem raise_classifier (f : Flag) (s : State) : (raise f s).classifier = s.classifier := rfl
@[simp] theorem raise_admission (f : Flag) (s : State) : (raise f s).admission = s.admission := rfl
@[simp] theorem raise_table (f : Flag) (s : State) : (raise f s).table = s.table := rfl
@[simp] theorem raise_gauge (f : Flag) (s : State) : (raise f s).gauge = s.gauge := rfl
@[simp] theorem raise_capture (f : Flag) (s : State) : (raise f s).capture = s.capture := rfl
@[simp] theorem raise_link (f : Flag) (s : State) : (raise f s).link = s.link := rfl
@[simp] theorem raise_answers (f : Flag) (s : State) : (raise f s).answers = s.answers := rfl
@[simp] theorem raise_sentDown (f : Flag) (s : State) : (raise f s).sentDown = s.sentDown := rfl
@[simp] theorem raise_sdo (f : Flag) (s : State) : (raise f s).sdo = s.sdo := rfl
@[simp] theorem raise_freePicks (f : Flag) (s : State) : (raise f s).freePicks = s.freePicks := rfl
@[simp] theorem raise_pending (f : Flag) (s : State) : (raise f s).pending = s.pending := rfl
@[simp] theorem raise_time (f : Flag) (s : State) : (raise f s).control.time = s.control.time := rfl
@[simp] theorem raise_resetHeld (f : Flag) (s : State) : (raise f s).control.resetHeld = s.control.resetHeld := rfl
@[simp] theorem raise_mask0 (f : Flag) (s : State) : (raise f s).control.mask0 = s.control.mask0 := rfl
@[simp] theorem raise_mask1 (f : Flag) (s : State) : (raise f s).control.mask1 = s.control.mask1 := rfl
@[simp] theorem raise_flags0 (f : Flag) (s : State) : (raise f s).control.flags0 = s.control.flags0 ||| f.bits0 := rfl
@[simp] theorem raise_flags1 (f : Flag) (s : State) : (raise f s).control.flags1 = s.control.flags1 ||| f.bits1 := rfl

@[simp] theorem raiseIf_intake (b : Bool) (f : Flag) (s : State) : (raiseIf b f s).intake = s.intake := by
  cases b <;> rfl
@[simp] theorem raiseIf_classifier (b : Bool) (f : Flag) (s : State) : (raiseIf b f s).classifier = s.classifier := by
  cases b <;> rfl
@[simp] theorem raiseIf_admission (b : Bool) (f : Flag) (s : State) : (raiseIf b f s).admission = s.admission := by
  cases b <;> rfl
@[simp] theorem raiseIf_table (b : Bool) (f : Flag) (s : State) : (raiseIf b f s).table = s.table := by
  cases b <;> rfl
@[simp] theorem raiseIf_gauge (b : Bool) (f : Flag) (s : State) : (raiseIf b f s).gauge = s.gauge := by
  cases b <;> rfl
@[simp] theorem raiseIf_capture (b : Bool) (f : Flag) (s : State) : (raiseIf b f s).capture = s.capture := by
  cases b <;> rfl
@[simp] theorem raiseIf_link (b : Bool) (f : Flag) (s : State) : (raiseIf b f s).link = s.link := by
  cases b <;> rfl
@[simp] theorem raiseIf_answers (b : Bool) (f : Flag) (s : State) : (raiseIf b f s).answers = s.answers := by
  cases b <;> rfl
@[simp] theorem raiseIf_sentDown (b : Bool) (f : Flag) (s : State) : (raiseIf b f s).sentDown = s.sentDown := by
  cases b <;> rfl
@[simp] theorem raiseIf_sdo (b : Bool) (f : Flag) (s : State) : (raiseIf b f s).sdo = s.sdo := by
  cases b <;> rfl
@[simp] theorem raiseIf_freePicks (b : Bool) (f : Flag) (s : State) : (raiseIf b f s).freePicks = s.freePicks := by
  cases b <;> rfl
@[simp] theorem raiseIf_pending (b : Bool) (f : Flag) (s : State) : (raiseIf b f s).pending = s.pending := by
  cases b <;> rfl
@[simp] theorem raiseIf_time (b : Bool) (f : Flag) (s : State) : (raiseIf b f s).control.time = s.control.time := by
  cases b <;> rfl
@[simp] theorem raiseIf_resetHeld (b : Bool) (f : Flag) (s : State) : (raiseIf b f s).control.resetHeld = s.control.resetHeld := by
  cases b <;> rfl
@[simp] theorem raiseIf_mask0 (b : Bool) (f : Flag) (s : State) : (raiseIf b f s).control.mask0 = s.control.mask0 := by
  cases b <;> rfl
@[simp] theorem raiseIf_mask1 (b : Bool) (f : Flag) (s : State) : (raiseIf b f s).control.mask1 = s.control.mask1 := by
  cases b <;> rfl

@[simp] theorem clearFlags0_intake (v : BitVec 16) (s : State) : (clearFlags0 v s).intake = s.intake := rfl
@[simp] theorem clearFlags0_classifier (v : BitVec 16) (s : State) : (clearFlags0 v s).classifier = s.classifier := rfl
@[simp] theorem clearFlags0_admission (v : BitVec 16) (s : State) : (clearFlags0 v s).admission = s.admission := rfl
@[simp] theorem clearFlags0_table (v : BitVec 16) (s : State) : (clearFlags0 v s).table = s.table := rfl
@[simp] theorem clearFlags0_gauge (v : BitVec 16) (s : State) : (clearFlags0 v s).gauge = s.gauge := rfl
@[simp] theorem clearFlags0_capture (v : BitVec 16) (s : State) : (clearFlags0 v s).capture = s.capture := rfl
@[simp] theorem clearFlags0_link (v : BitVec 16) (s : State) : (clearFlags0 v s).link = s.link := rfl
@[simp] theorem clearFlags0_answers (v : BitVec 16) (s : State) : (clearFlags0 v s).answers = s.answers := rfl
@[simp] theorem clearFlags0_sentDown (v : BitVec 16) (s : State) : (clearFlags0 v s).sentDown = s.sentDown := rfl
@[simp] theorem clearFlags0_sdo (v : BitVec 16) (s : State) : (clearFlags0 v s).sdo = s.sdo := rfl
@[simp] theorem clearFlags0_freePicks (v : BitVec 16) (s : State) : (clearFlags0 v s).freePicks = s.freePicks := rfl
@[simp] theorem clearFlags0_pending (v : BitVec 16) (s : State) : (clearFlags0 v s).pending = s.pending := rfl

@[simp] theorem clearFlags1_intake (v : BitVec 16) (s : State) : (clearFlags1 v s).intake = s.intake := rfl
@[simp] theorem clearFlags1_classifier (v : BitVec 16) (s : State) : (clearFlags1 v s).classifier = s.classifier := rfl
@[simp] theorem clearFlags1_admission (v : BitVec 16) (s : State) : (clearFlags1 v s).admission = s.admission := rfl
@[simp] theorem clearFlags1_table (v : BitVec 16) (s : State) : (clearFlags1 v s).table = s.table := rfl
@[simp] theorem clearFlags1_gauge (v : BitVec 16) (s : State) : (clearFlags1 v s).gauge = s.gauge := rfl
@[simp] theorem clearFlags1_capture (v : BitVec 16) (s : State) : (clearFlags1 v s).capture = s.capture := rfl
@[simp] theorem clearFlags1_link (v : BitVec 16) (s : State) : (clearFlags1 v s).link = s.link := rfl
@[simp] theorem clearFlags1_answers (v : BitVec 16) (s : State) : (clearFlags1 v s).answers = s.answers := rfl
@[simp] theorem clearFlags1_sentDown (v : BitVec 16) (s : State) : (clearFlags1 v s).sentDown = s.sentDown := rfl
@[simp] theorem clearFlags1_sdo (v : BitVec 16) (s : State) : (clearFlags1 v s).sdo = s.sdo := rfl
@[simp] theorem clearFlags1_freePicks (v : BitVec 16) (s : State) : (clearFlags1 v s).freePicks = s.freePicks := rfl
@[simp] theorem clearFlags1_pending (v : BitVec 16) (s : State) : (clearFlags1 v s).pending = s.pending := rfl

@[simp] theorem setMask0_intake (v : BitVec 16) (s : State) : (setMask0 v s).intake = s.intake := rfl
@[simp] theorem setMask0_classifier (v : BitVec 16) (s : State) : (setMask0 v s).classifier = s.classifier := rfl
@[simp] theorem setMask0_admission (v : BitVec 16) (s : State) : (setMask0 v s).admission = s.admission := rfl
@[simp] theorem setMask0_table (v : BitVec 16) (s : State) : (setMask0 v s).table = s.table := rfl
@[simp] theorem setMask0_gauge (v : BitVec 16) (s : State) : (setMask0 v s).gauge = s.gauge := rfl
@[simp] theorem setMask0_capture (v : BitVec 16) (s : State) : (setMask0 v s).capture = s.capture := rfl
@[simp] theorem setMask0_link (v : BitVec 16) (s : State) : (setMask0 v s).link = s.link := rfl
@[simp] theorem setMask0_answers (v : BitVec 16) (s : State) : (setMask0 v s).answers = s.answers := rfl
@[simp] theorem setMask0_sentDown (v : BitVec 16) (s : State) : (setMask0 v s).sentDown = s.sentDown := rfl
@[simp] theorem setMask0_sdo (v : BitVec 16) (s : State) : (setMask0 v s).sdo = s.sdo := rfl
@[simp] theorem setMask0_freePicks (v : BitVec 16) (s : State) : (setMask0 v s).freePicks = s.freePicks := rfl
@[simp] theorem setMask0_pending (v : BitVec 16) (s : State) : (setMask0 v s).pending = s.pending := rfl

@[simp] theorem setMask1_intake (v : BitVec 16) (s : State) : (setMask1 v s).intake = s.intake := rfl
@[simp] theorem setMask1_classifier (v : BitVec 16) (s : State) : (setMask1 v s).classifier = s.classifier := rfl
@[simp] theorem setMask1_admission (v : BitVec 16) (s : State) : (setMask1 v s).admission = s.admission := rfl
@[simp] theorem setMask1_table (v : BitVec 16) (s : State) : (setMask1 v s).table = s.table := rfl
@[simp] theorem setMask1_gauge (v : BitVec 16) (s : State) : (setMask1 v s).gauge = s.gauge := rfl
@[simp] theorem setMask1_capture (v : BitVec 16) (s : State) : (setMask1 v s).capture = s.capture := rfl
@[simp] theorem setMask1_link (v : BitVec 16) (s : State) : (setMask1 v s).link = s.link := rfl
@[simp] theorem setMask1_answers (v : BitVec 16) (s : State) : (setMask1 v s).answers = s.answers := rfl
@[simp] theorem setMask1_sentDown (v : BitVec 16) (s : State) : (setMask1 v s).sentDown = s.sentDown := rfl
@[simp] theorem setMask1_sdo (v : BitVec 16) (s : State) : (setMask1 v s).sdo = s.sdo := rfl
@[simp] theorem setMask1_freePicks (v : BitVec 16) (s : State) : (setMask1 v s).freePicks = s.freePicks := rfl
@[simp] theorem setMask1_pending (v : BitVec 16) (s : State) : (setMask1 v s).pending = s.pending := rfl

/-! ### Outputs and the intake -/

@[simp] theorem emit_control (a b : Byte) (st : AnswerStatus) (d : List Byte) (s : State) : (emit a b st d s).control = s.control := rfl
@[simp] theorem emit_intake (a b : Byte) (st : AnswerStatus) (d : List Byte) (s : State) : (emit a b st d s).intake = s.intake := rfl
@[simp] theorem emit_classifier (a b : Byte) (st : AnswerStatus) (d : List Byte) (s : State) : (emit a b st d s).classifier = s.classifier := rfl
@[simp] theorem emit_admission (a b : Byte) (st : AnswerStatus) (d : List Byte) (s : State) : (emit a b st d s).admission = s.admission := rfl
@[simp] theorem emit_table (a b : Byte) (st : AnswerStatus) (d : List Byte) (s : State) : (emit a b st d s).table = s.table := rfl
@[simp] theorem emit_gauge (a b : Byte) (st : AnswerStatus) (d : List Byte) (s : State) : (emit a b st d s).gauge = s.gauge := rfl
@[simp] theorem emit_capture (a b : Byte) (st : AnswerStatus) (d : List Byte) (s : State) : (emit a b st d s).capture = s.capture := rfl
@[simp] theorem emit_link (a b : Byte) (st : AnswerStatus) (d : List Byte) (s : State) : (emit a b st d s).link = s.link := rfl
@[simp] theorem emit_sentDown (a b : Byte) (st : AnswerStatus) (d : List Byte) (s : State) : (emit a b st d s).sentDown = s.sentDown := rfl
@[simp] theorem emit_sdo (a b : Byte) (st : AnswerStatus) (d : List Byte) (s : State) : (emit a b st d s).sdo = s.sdo := rfl
@[simp] theorem emit_freePicks (a b : Byte) (st : AnswerStatus) (d : List Byte) (s : State) : (emit a b st d s).freePicks = s.freePicks := rfl
@[simp] theorem emit_pending (a b : Byte) (st : AnswerStatus) (d : List Byte) (s : State) : (emit a b st d s).pending = s.pending := rfl
@[simp] theorem emit_answers (a b : Byte) (st : AnswerStatus) (d : List Byte) (s : State) : (emit a b st d s).answers = s.answers ++ [{ source := a, tag := b, status := st, data := d }] := rfl

@[simp] theorem setIntake_control (i : IntakeReg) (s : State) : (setIntake i s).control = s.control := rfl
@[simp] theorem setIntake_classifier (i : IntakeReg) (s : State) : (setIntake i s).classifier = s.classifier := rfl
@[simp] theorem setIntake_admission (i : IntakeReg) (s : State) : (setIntake i s).admission = s.admission := rfl
@[simp] theorem setIntake_table (i : IntakeReg) (s : State) : (setIntake i s).table = s.table := rfl
@[simp] theorem setIntake_gauge (i : IntakeReg) (s : State) : (setIntake i s).gauge = s.gauge := rfl
@[simp] theorem setIntake_capture (i : IntakeReg) (s : State) : (setIntake i s).capture = s.capture := rfl
@[simp] theorem setIntake_link (i : IntakeReg) (s : State) : (setIntake i s).link = s.link := rfl
@[simp] theorem setIntake_answers (i : IntakeReg) (s : State) : (setIntake i s).answers = s.answers := rfl
@[simp] theorem setIntake_sentDown (i : IntakeReg) (s : State) : (setIntake i s).sentDown = s.sentDown := rfl
@[simp] theorem setIntake_sdo (i : IntakeReg) (s : State) : (setIntake i s).sdo = s.sdo := rfl
@[simp] theorem setIntake_freePicks (i : IntakeReg) (s : State) : (setIntake i s).freePicks = s.freePicks := rfl
@[simp] theorem setIntake_pending (i : IntakeReg) (s : State) : (setIntake i s).pending = s.pending := rfl
@[simp] theorem setIntake_intake (i : IntakeReg) (s : State) : (setIntake i s).intake = i := rfl

@[simp] theorem waitIntake_classifier (r : Req) (w : WaitReason) (s : State) : (waitIntake r w s).classifier = s.classifier := rfl
@[simp] theorem waitIntake_admission (r : Req) (w : WaitReason) (s : State) : (waitIntake r w s).admission = s.admission := rfl
@[simp] theorem waitIntake_table (r : Req) (w : WaitReason) (s : State) : (waitIntake r w s).table = s.table := rfl
@[simp] theorem waitIntake_gauge (r : Req) (w : WaitReason) (s : State) : (waitIntake r w s).gauge = s.gauge := rfl
@[simp] theorem waitIntake_capture (r : Req) (w : WaitReason) (s : State) : (waitIntake r w s).capture = s.capture := rfl
@[simp] theorem waitIntake_link (r : Req) (w : WaitReason) (s : State) : (waitIntake r w s).link = s.link := rfl
@[simp] theorem waitIntake_answers (r : Req) (w : WaitReason) (s : State) : (waitIntake r w s).answers = s.answers := rfl
@[simp] theorem waitIntake_sentDown (r : Req) (w : WaitReason) (s : State) : (waitIntake r w s).sentDown = s.sentDown := rfl
@[simp] theorem waitIntake_sdo (r : Req) (w : WaitReason) (s : State) : (waitIntake r w s).sdo = s.sdo := rfl
@[simp] theorem waitIntake_freePicks (r : Req) (w : WaitReason) (s : State) : (waitIntake r w s).freePicks = s.freePicks := rfl
@[simp] theorem waitIntake_pending (r : Req) (w : WaitReason) (s : State) : (waitIntake r w s).pending = s.pending := rfl
@[simp] theorem waitIntake_intake (r : Req) (w : WaitReason) (s : State) : (waitIntake r w s).intake = .waiting r w := rfl
@[simp] theorem waitIntake_control (r : Req) (w : WaitReason) (s : State) : (waitIntake r w s).control = (raise .stalled s).control := rfl

/-! ### The admission unit -/

@[simp] theorem updCls_control (c : ClassId) (f : ClassRec → ClassRec) (s : State) : (updCls c f s).control = s.control := by
  simp only [updCls]
@[simp] theorem updCls_intake (c : ClassId) (f : ClassRec → ClassRec) (s : State) : (updCls c f s).intake = s.intake := by
  simp only [updCls]
@[simp] theorem updCls_classifier (c : ClassId) (f : ClassRec → ClassRec) (s : State) : (updCls c f s).classifier = s.classifier := by
  simp only [updCls]
@[simp] theorem updCls_table (c : ClassId) (f : ClassRec → ClassRec) (s : State) : (updCls c f s).table = s.table := by
  simp only [updCls]
@[simp] theorem updCls_gauge (c : ClassId) (f : ClassRec → ClassRec) (s : State) : (updCls c f s).gauge = s.gauge := by
  simp only [updCls]
@[simp] theorem updCls_capture (c : ClassId) (f : ClassRec → ClassRec) (s : State) : (updCls c f s).capture = s.capture := by
  simp only [updCls]
@[simp] theorem updCls_link (c : ClassId) (f : ClassRec → ClassRec) (s : State) : (updCls c f s).link = s.link := by
  simp only [updCls]
@[simp] theorem updCls_answers (c : ClassId) (f : ClassRec → ClassRec) (s : State) : (updCls c f s).answers = s.answers := by
  simp only [updCls]
@[simp] theorem updCls_sentDown (c : ClassId) (f : ClassRec → ClassRec) (s : State) : (updCls c f s).sentDown = s.sentDown := by
  simp only [updCls]
@[simp] theorem updCls_sdo (c : ClassId) (f : ClassRec → ClassRec) (s : State) : (updCls c f s).sdo = s.sdo := by
  simp only [updCls]
@[simp] theorem updCls_freePicks (c : ClassId) (f : ClassRec → ClassRec) (s : State) : (updCls c f s).freePicks = s.freePicks := by
  simp only [updCls]
@[simp] theorem updCls_pending (c : ClassId) (f : ClassRec → ClassRec) (s : State) : (updCls c f s).pending = s.pending := by
  simp only [updCls]
@[simp] theorem updCls_admission_refillPeriod (c : ClassId) (f : ClassRec → ClassRec) (s : State) : (updCls c f s).admission.refillPeriod = s.admission.refillPeriod := by
  simp only [updCls]
@[simp] theorem updCls_admission_refillStart (c : ClassId) (f : ClassRec → ClassRec) (s : State) : (updCls c f s).admission.refillStart = s.admission.refillStart := by
  simp only [updCls]
@[simp] theorem updCls_admission_poolLevel (c : ClassId) (f : ClassRec → ClassRec) (s : State) : (updCls c f s).admission.poolLevel = s.admission.poolLevel := by
  simp only [updCls]
@[simp] theorem updCls_admission_poolCap (c : ClassId) (f : ClassRec → ClassRec) (s : State) : (updCls c f s).admission.poolCap = s.admission.poolCap := by
  simp only [updCls]
@[simp] theorem updCls_admission_pointers (c : ClassId) (f : ClassRec → ClassRec) (s : State) : (updCls c f s).admission.pointers = s.admission.pointers := by
  simp only [updCls]
@[simp] theorem updCls_admission_evalRunning (c : ClassId) (f : ClassRec → ClassRec) (s : State) : (updCls c f s).admission.evalRunning = s.admission.evalRunning := by
  simp only [updCls]
@[simp] theorem updCls_admission_retryNotices (c : ClassId) (f : ClassRec → ClassRec) (s : State) : (updCls c f s).admission.retryNotices = s.admission.retryNotices := by
  simp only [updCls]

@[simp] theorem updAllCls_control (f : ClassId → ClassRec → ClassRec) (s : State) : (updAllCls f s).control = s.control := by
  simp only [updAllCls]
@[simp] theorem updAllCls_intake (f : ClassId → ClassRec → ClassRec) (s : State) : (updAllCls f s).intake = s.intake := by
  simp only [updAllCls]
@[simp] theorem updAllCls_classifier (f : ClassId → ClassRec → ClassRec) (s : State) : (updAllCls f s).classifier = s.classifier := by
  simp only [updAllCls]
@[simp] theorem updAllCls_table (f : ClassId → ClassRec → ClassRec) (s : State) : (updAllCls f s).table = s.table := by
  simp only [updAllCls]
@[simp] theorem updAllCls_gauge (f : ClassId → ClassRec → ClassRec) (s : State) : (updAllCls f s).gauge = s.gauge := by
  simp only [updAllCls]
@[simp] theorem updAllCls_capture (f : ClassId → ClassRec → ClassRec) (s : State) : (updAllCls f s).capture = s.capture := by
  simp only [updAllCls]
@[simp] theorem updAllCls_link (f : ClassId → ClassRec → ClassRec) (s : State) : (updAllCls f s).link = s.link := by
  simp only [updAllCls]
@[simp] theorem updAllCls_answers (f : ClassId → ClassRec → ClassRec) (s : State) : (updAllCls f s).answers = s.answers := by
  simp only [updAllCls]
@[simp] theorem updAllCls_sentDown (f : ClassId → ClassRec → ClassRec) (s : State) : (updAllCls f s).sentDown = s.sentDown := by
  simp only [updAllCls]
@[simp] theorem updAllCls_sdo (f : ClassId → ClassRec → ClassRec) (s : State) : (updAllCls f s).sdo = s.sdo := by
  simp only [updAllCls]
@[simp] theorem updAllCls_freePicks (f : ClassId → ClassRec → ClassRec) (s : State) : (updAllCls f s).freePicks = s.freePicks := by
  simp only [updAllCls]
@[simp] theorem updAllCls_pending (f : ClassId → ClassRec → ClassRec) (s : State) : (updAllCls f s).pending = s.pending := by
  simp only [updAllCls]
@[simp] theorem updAllCls_admission_refillPeriod (f : ClassId → ClassRec → ClassRec) (s : State) : (updAllCls f s).admission.refillPeriod = s.admission.refillPeriod := by
  simp only [updAllCls]
@[simp] theorem updAllCls_admission_refillStart (f : ClassId → ClassRec → ClassRec) (s : State) : (updAllCls f s).admission.refillStart = s.admission.refillStart := by
  simp only [updAllCls]
@[simp] theorem updAllCls_admission_poolLevel (f : ClassId → ClassRec → ClassRec) (s : State) : (updAllCls f s).admission.poolLevel = s.admission.poolLevel := by
  simp only [updAllCls]
@[simp] theorem updAllCls_admission_poolCap (f : ClassId → ClassRec → ClassRec) (s : State) : (updAllCls f s).admission.poolCap = s.admission.poolCap := by
  simp only [updAllCls]
@[simp] theorem updAllCls_admission_pointers (f : ClassId → ClassRec → ClassRec) (s : State) : (updAllCls f s).admission.pointers = s.admission.pointers := by
  simp only [updAllCls]
@[simp] theorem updAllCls_admission_evalRunning (f : ClassId → ClassRec → ClassRec) (s : State) : (updAllCls f s).admission.evalRunning = s.admission.evalRunning := by
  simp only [updAllCls]
@[simp] theorem updAllCls_admission_retryNotices (f : ClassId → ClassRec → ClassRec) (s : State) : (updAllCls f s).admission.retryNotices = s.admission.retryNotices := by
  simp only [updAllCls]

@[simp] theorem notice_control (s : State) : (notice s).control = s.control := rfl
@[simp] theorem notice_intake (s : State) : (notice s).intake = s.intake := rfl
@[simp] theorem notice_classifier (s : State) : (notice s).classifier = s.classifier := rfl
@[simp] theorem notice_table (s : State) : (notice s).table = s.table := rfl
@[simp] theorem notice_gauge (s : State) : (notice s).gauge = s.gauge := rfl
@[simp] theorem notice_capture (s : State) : (notice s).capture = s.capture := rfl
@[simp] theorem notice_link (s : State) : (notice s).link = s.link := rfl
@[simp] theorem notice_answers (s : State) : (notice s).answers = s.answers := rfl
@[simp] theorem notice_sentDown (s : State) : (notice s).sentDown = s.sentDown := rfl
@[simp] theorem notice_sdo (s : State) : (notice s).sdo = s.sdo := rfl
@[simp] theorem notice_freePicks (s : State) : (notice s).freePicks = s.freePicks := rfl
@[simp] theorem notice_pending (s : State) : (notice s).pending = s.pending := rfl
@[simp] theorem notice_admission_classes (s : State) : (notice s).admission.classes = s.admission.classes := rfl
@[simp] theorem notice_admission_refillPeriod (s : State) : (notice s).admission.refillPeriod = s.admission.refillPeriod := rfl
@[simp] theorem notice_admission_refillStart (s : State) : (notice s).admission.refillStart = s.admission.refillStart := rfl
@[simp] theorem notice_admission_poolLevel (s : State) : (notice s).admission.poolLevel = s.admission.poolLevel := rfl
@[simp] theorem notice_admission_poolCap (s : State) : (notice s).admission.poolCap = s.admission.poolCap := rfl
@[simp] theorem notice_admission_pointers (s : State) : (notice s).admission.pointers = s.admission.pointers := rfl
@[simp] theorem notice_admission_evalRunning (s : State) : (notice s).admission.evalRunning = s.admission.evalRunning := rfl
@[simp] theorem notice_admission_retryNotices (s : State) : (notice s).admission.retryNotices = s.admission.retryNotices + 1 := rfl

@[simp] theorem startEval_control (s : State) : (startEval s).control = s.control := rfl
@[simp] theorem startEval_intake (s : State) : (startEval s).intake = s.intake := rfl
@[simp] theorem startEval_classifier (s : State) : (startEval s).classifier = s.classifier := rfl
@[simp] theorem startEval_table (s : State) : (startEval s).table = s.table := rfl
@[simp] theorem startEval_gauge (s : State) : (startEval s).gauge = s.gauge := rfl
@[simp] theorem startEval_capture (s : State) : (startEval s).capture = s.capture := rfl
@[simp] theorem startEval_link (s : State) : (startEval s).link = s.link := rfl
@[simp] theorem startEval_answers (s : State) : (startEval s).answers = s.answers := rfl
@[simp] theorem startEval_sentDown (s : State) : (startEval s).sentDown = s.sentDown := rfl
@[simp] theorem startEval_sdo (s : State) : (startEval s).sdo = s.sdo := rfl
@[simp] theorem startEval_freePicks (s : State) : (startEval s).freePicks = s.freePicks := rfl
@[simp] theorem startEval_pending (s : State) : (startEval s).pending = s.pending := rfl
@[simp] theorem startEval_admission_classes (s : State) : (startEval s).admission.classes = s.admission.classes := rfl
@[simp] theorem startEval_admission_refillPeriod (s : State) : (startEval s).admission.refillPeriod = s.admission.refillPeriod := rfl
@[simp] theorem startEval_admission_refillStart (s : State) : (startEval s).admission.refillStart = s.admission.refillStart := rfl
@[simp] theorem startEval_admission_poolLevel (s : State) : (startEval s).admission.poolLevel = s.admission.poolLevel := rfl
@[simp] theorem startEval_admission_poolCap (s : State) : (startEval s).admission.poolCap = s.admission.poolCap := rfl
@[simp] theorem startEval_admission_pointers (s : State) : (startEval s).admission.pointers = s.admission.pointers := rfl
@[simp] theorem startEval_admission_retryNotices (s : State) : (startEval s).admission.retryNotices = s.admission.retryNotices := rfl
@[simp] theorem startEval_admission_evalRunning (s : State) : (startEval s).admission.evalRunning = true := rfl

@[simp] theorem setReason_control (c : ClassId) (s : State) : (setReason c s).control = s.control := by
  simp only [setReason, updCls]
@[simp] theorem setReason_intake (c : ClassId) (s : State) : (setReason c s).intake = s.intake := by
  simp only [setReason, updCls]
@[simp] theorem setReason_classifier (c : ClassId) (s : State) : (setReason c s).classifier = s.classifier := by
  simp only [setReason, updCls]
@[simp] theorem setReason_table (c : ClassId) (s : State) : (setReason c s).table = s.table := by
  simp only [setReason, updCls]
@[simp] theorem setReason_gauge (c : ClassId) (s : State) : (setReason c s).gauge = s.gauge := by
  simp only [setReason, updCls]
@[simp] theorem setReason_capture (c : ClassId) (s : State) : (setReason c s).capture = s.capture := by
  simp only [setReason, updCls]
@[simp] theorem setReason_link (c : ClassId) (s : State) : (setReason c s).link = s.link := by
  simp only [setReason, updCls]
@[simp] theorem setReason_answers (c : ClassId) (s : State) : (setReason c s).answers = s.answers := by
  simp only [setReason, updCls]
@[simp] theorem setReason_sentDown (c : ClassId) (s : State) : (setReason c s).sentDown = s.sentDown := by
  simp only [setReason, updCls]
@[simp] theorem setReason_sdo (c : ClassId) (s : State) : (setReason c s).sdo = s.sdo := by
  simp only [setReason, updCls]
@[simp] theorem setReason_freePicks (c : ClassId) (s : State) : (setReason c s).freePicks = s.freePicks := by
  simp only [setReason, updCls]
@[simp] theorem setReason_pending (c : ClassId) (s : State) : (setReason c s).pending = s.pending := by
  simp only [setReason, updCls]
@[simp] theorem setReason_admission_refillPeriod (c : ClassId) (s : State) : (setReason c s).admission.refillPeriod = s.admission.refillPeriod := by
  simp only [setReason, updCls]
@[simp] theorem setReason_admission_refillStart (c : ClassId) (s : State) : (setReason c s).admission.refillStart = s.admission.refillStart := by
  simp only [setReason, updCls]
@[simp] theorem setReason_admission_poolLevel (c : ClassId) (s : State) : (setReason c s).admission.poolLevel = s.admission.poolLevel := by
  simp only [setReason, updCls]
@[simp] theorem setReason_admission_poolCap (c : ClassId) (s : State) : (setReason c s).admission.poolCap = s.admission.poolCap := by
  simp only [setReason, updCls]
@[simp] theorem setReason_admission_pointers (c : ClassId) (s : State) : (setReason c s).admission.pointers = s.admission.pointers := by
  simp only [setReason, updCls]
@[simp] theorem setReason_admission_evalRunning (c : ClassId) (s : State) : (setReason c s).admission.evalRunning = s.admission.evalRunning := by
  simp only [setReason, updCls]
@[simp] theorem setReason_admission_retryNotices (c : ClassId) (s : State) : (setReason c s).admission.retryNotices = s.admission.retryNotices := by
  simp only [setReason, updCls]

@[simp] theorem setReasons_control (s : State) : (setReasons s).control = s.control := by
  simp only [setReasons, updAllCls]
@[simp] theorem setReasons_intake (s : State) : (setReasons s).intake = s.intake := by
  simp only [setReasons, updAllCls]
@[simp] theorem setReasons_classifier (s : State) : (setReasons s).classifier = s.classifier := by
  simp only [setReasons, updAllCls]
@[simp] theorem setReasons_table (s : State) : (setReasons s).table = s.table := by
  simp only [setReasons, updAllCls]
@[simp] theorem setReasons_gauge (s : State) : (setReasons s).gauge = s.gauge := by
  simp only [setReasons, updAllCls]
@[simp] theorem setReasons_capture (s : State) : (setReasons s).capture = s.capture := by
  simp only [setReasons, updAllCls]
@[simp] theorem setReasons_link (s : State) : (setReasons s).link = s.link := by
  simp only [setReasons, updAllCls]
@[simp] theorem setReasons_answers (s : State) : (setReasons s).answers = s.answers := by
  simp only [setReasons, updAllCls]
@[simp] theorem setReasons_sentDown (s : State) : (setReasons s).sentDown = s.sentDown := by
  simp only [setReasons, updAllCls]
@[simp] theorem setReasons_sdo (s : State) : (setReasons s).sdo = s.sdo := by
  simp only [setReasons, updAllCls]
@[simp] theorem setReasons_freePicks (s : State) : (setReasons s).freePicks = s.freePicks := by
  simp only [setReasons, updAllCls]
@[simp] theorem setReasons_pending (s : State) : (setReasons s).pending = s.pending := by
  simp only [setReasons, updAllCls]
@[simp] theorem setReasons_admission_refillPeriod (s : State) : (setReasons s).admission.refillPeriod = s.admission.refillPeriod := by
  simp only [setReasons, updAllCls]
@[simp] theorem setReasons_admission_refillStart (s : State) : (setReasons s).admission.refillStart = s.admission.refillStart := by
  simp only [setReasons, updAllCls]
@[simp] theorem setReasons_admission_poolLevel (s : State) : (setReasons s).admission.poolLevel = s.admission.poolLevel := by
  simp only [setReasons, updAllCls]
@[simp] theorem setReasons_admission_poolCap (s : State) : (setReasons s).admission.poolCap = s.admission.poolCap := by
  simp only [setReasons, updAllCls]
@[simp] theorem setReasons_admission_pointers (s : State) : (setReasons s).admission.pointers = s.admission.pointers := by
  simp only [setReasons, updAllCls]
@[simp] theorem setReasons_admission_evalRunning (s : State) : (setReasons s).admission.evalRunning = s.admission.evalRunning := by
  simp only [setReasons, updAllCls]
@[simp] theorem setReasons_admission_retryNotices (s : State) : (setReasons s).admission.retryNotices = s.admission.retryNotices := by
  simp only [setReasons, updAllCls]

@[simp] theorem setPointer_control (l : Fin 4) (c : ClassId) (s : State) : (setPointer l c s).control = s.control := by
  simp only [setPointer]
@[simp] theorem setPointer_intake (l : Fin 4) (c : ClassId) (s : State) : (setPointer l c s).intake = s.intake := by
  simp only [setPointer]
@[simp] theorem setPointer_classifier (l : Fin 4) (c : ClassId) (s : State) : (setPointer l c s).classifier = s.classifier := by
  simp only [setPointer]
@[simp] theorem setPointer_table (l : Fin 4) (c : ClassId) (s : State) : (setPointer l c s).table = s.table := by
  simp only [setPointer]
@[simp] theorem setPointer_gauge (l : Fin 4) (c : ClassId) (s : State) : (setPointer l c s).gauge = s.gauge := by
  simp only [setPointer]
@[simp] theorem setPointer_capture (l : Fin 4) (c : ClassId) (s : State) : (setPointer l c s).capture = s.capture := by
  simp only [setPointer]
@[simp] theorem setPointer_link (l : Fin 4) (c : ClassId) (s : State) : (setPointer l c s).link = s.link := by
  simp only [setPointer]
@[simp] theorem setPointer_answers (l : Fin 4) (c : ClassId) (s : State) : (setPointer l c s).answers = s.answers := by
  simp only [setPointer]
@[simp] theorem setPointer_sentDown (l : Fin 4) (c : ClassId) (s : State) : (setPointer l c s).sentDown = s.sentDown := by
  simp only [setPointer]
@[simp] theorem setPointer_sdo (l : Fin 4) (c : ClassId) (s : State) : (setPointer l c s).sdo = s.sdo := by
  simp only [setPointer]
@[simp] theorem setPointer_freePicks (l : Fin 4) (c : ClassId) (s : State) : (setPointer l c s).freePicks = s.freePicks := by
  simp only [setPointer]
@[simp] theorem setPointer_pending (l : Fin 4) (c : ClassId) (s : State) : (setPointer l c s).pending = s.pending := by
  simp only [setPointer]
@[simp] theorem setPointer_admission_classes (l : Fin 4) (c : ClassId) (s : State) : (setPointer l c s).admission.classes = s.admission.classes := by
  simp only [setPointer]
@[simp] theorem setPointer_admission_refillPeriod (l : Fin 4) (c : ClassId) (s : State) : (setPointer l c s).admission.refillPeriod = s.admission.refillPeriod := by
  simp only [setPointer]
@[simp] theorem setPointer_admission_refillStart (l : Fin 4) (c : ClassId) (s : State) : (setPointer l c s).admission.refillStart = s.admission.refillStart := by
  simp only [setPointer]
@[simp] theorem setPointer_admission_poolLevel (l : Fin 4) (c : ClassId) (s : State) : (setPointer l c s).admission.poolLevel = s.admission.poolLevel := by
  simp only [setPointer]
@[simp] theorem setPointer_admission_poolCap (l : Fin 4) (c : ClassId) (s : State) : (setPointer l c s).admission.poolCap = s.admission.poolCap := by
  simp only [setPointer]
@[simp] theorem setPointer_admission_evalRunning (l : Fin 4) (c : ClassId) (s : State) : (setPointer l c s).admission.evalRunning = s.admission.evalRunning := by
  simp only [setPointer]
@[simp] theorem setPointer_admission_retryNotices (l : Fin 4) (c : ClassId) (s : State) : (setPointer l c s).admission.retryNotices = s.admission.retryNotices := by
  simp only [setPointer]

@[simp] theorem updOutstanding_control (t : Traffic) (f : Nat → Nat) (s : State) : (updOutstanding t f s).control = s.control := by
  cases t <;> simp only [updOutstanding, updCls]
@[simp] theorem updOutstanding_intake (t : Traffic) (f : Nat → Nat) (s : State) : (updOutstanding t f s).intake = s.intake := by
  cases t <;> simp only [updOutstanding, updCls]
@[simp] theorem updOutstanding_classifier (t : Traffic) (f : Nat → Nat) (s : State) : (updOutstanding t f s).classifier = s.classifier := by
  cases t <;> simp only [updOutstanding, updCls]
@[simp] theorem updOutstanding_table (t : Traffic) (f : Nat → Nat) (s : State) : (updOutstanding t f s).table = s.table := by
  cases t <;> simp only [updOutstanding, updCls]
@[simp] theorem updOutstanding_gauge (t : Traffic) (f : Nat → Nat) (s : State) : (updOutstanding t f s).gauge = s.gauge := by
  cases t <;> simp only [updOutstanding, updCls]
@[simp] theorem updOutstanding_capture (t : Traffic) (f : Nat → Nat) (s : State) : (updOutstanding t f s).capture = s.capture := by
  cases t <;> simp only [updOutstanding, updCls]
@[simp] theorem updOutstanding_link (t : Traffic) (f : Nat → Nat) (s : State) : (updOutstanding t f s).link = s.link := by
  cases t <;> simp only [updOutstanding, updCls]
@[simp] theorem updOutstanding_answers (t : Traffic) (f : Nat → Nat) (s : State) : (updOutstanding t f s).answers = s.answers := by
  cases t <;> simp only [updOutstanding, updCls]
@[simp] theorem updOutstanding_sentDown (t : Traffic) (f : Nat → Nat) (s : State) : (updOutstanding t f s).sentDown = s.sentDown := by
  cases t <;> simp only [updOutstanding, updCls]
@[simp] theorem updOutstanding_sdo (t : Traffic) (f : Nat → Nat) (s : State) : (updOutstanding t f s).sdo = s.sdo := by
  cases t <;> simp only [updOutstanding, updCls]
@[simp] theorem updOutstanding_freePicks (t : Traffic) (f : Nat → Nat) (s : State) : (updOutstanding t f s).freePicks = s.freePicks := by
  cases t <;> simp only [updOutstanding, updCls]
@[simp] theorem updOutstanding_pending (t : Traffic) (f : Nat → Nat) (s : State) : (updOutstanding t f s).pending = s.pending := by
  cases t <;> simp only [updOutstanding, updCls]
@[simp] theorem updOutstanding_admission_refillPeriod (t : Traffic) (f : Nat → Nat) (s : State) : (updOutstanding t f s).admission.refillPeriod = s.admission.refillPeriod := by
  cases t <;> simp only [updOutstanding, updCls]
@[simp] theorem updOutstanding_admission_refillStart (t : Traffic) (f : Nat → Nat) (s : State) : (updOutstanding t f s).admission.refillStart = s.admission.refillStart := by
  cases t <;> simp only [updOutstanding, updCls]
@[simp] theorem updOutstanding_admission_poolLevel (t : Traffic) (f : Nat → Nat) (s : State) : (updOutstanding t f s).admission.poolLevel = s.admission.poolLevel := by
  cases t <;> simp only [updOutstanding, updCls]
@[simp] theorem updOutstanding_admission_poolCap (t : Traffic) (f : Nat → Nat) (s : State) : (updOutstanding t f s).admission.poolCap = s.admission.poolCap := by
  cases t <;> simp only [updOutstanding, updCls]
@[simp] theorem updOutstanding_admission_pointers (t : Traffic) (f : Nat → Nat) (s : State) : (updOutstanding t f s).admission.pointers = s.admission.pointers := by
  cases t <;> simp only [updOutstanding, updCls]
@[simp] theorem updOutstanding_admission_evalRunning (t : Traffic) (f : Nat → Nat) (s : State) : (updOutstanding t f s).admission.evalRunning = s.admission.evalRunning := by
  cases t <;> simp only [updOutstanding, updCls]
@[simp] theorem updOutstanding_admission_retryNotices (t : Traffic) (f : Nat → Nat) (s : State) : (updOutstanding t f s).admission.retryNotices = s.admission.retryNotices := by
  cases t <;> simp only [updOutstanding, updCls]

@[simp] theorem outstandingFall_control (t : Traffic) (s : State) : (outstandingFall t s).control = s.control := by
  cases t <;> simp [outstandingFall]
@[simp] theorem outstandingFall_intake (t : Traffic) (s : State) : (outstandingFall t s).intake = s.intake := by
  cases t <;> simp [outstandingFall]
@[simp] theorem outstandingFall_classifier (t : Traffic) (s : State) : (outstandingFall t s).classifier = s.classifier := by
  cases t <;> simp [outstandingFall]
@[simp] theorem outstandingFall_table (t : Traffic) (s : State) : (outstandingFall t s).table = s.table := by
  cases t <;> simp [outstandingFall]
@[simp] theorem outstandingFall_gauge (t : Traffic) (s : State) : (outstandingFall t s).gauge = s.gauge := by
  cases t <;> simp [outstandingFall]
@[simp] theorem outstandingFall_capture (t : Traffic) (s : State) : (outstandingFall t s).capture = s.capture := by
  cases t <;> simp [outstandingFall]
@[simp] theorem outstandingFall_link (t : Traffic) (s : State) : (outstandingFall t s).link = s.link := by
  cases t <;> simp [outstandingFall]
@[simp] theorem outstandingFall_answers (t : Traffic) (s : State) : (outstandingFall t s).answers = s.answers := by
  cases t <;> simp [outstandingFall]
@[simp] theorem outstandingFall_sentDown (t : Traffic) (s : State) : (outstandingFall t s).sentDown = s.sentDown := by
  cases t <;> simp [outstandingFall]
@[simp] theorem outstandingFall_sdo (t : Traffic) (s : State) : (outstandingFall t s).sdo = s.sdo := by
  cases t <;> simp [outstandingFall]
@[simp] theorem outstandingFall_freePicks (t : Traffic) (s : State) : (outstandingFall t s).freePicks = s.freePicks := by
  cases t <;> simp [outstandingFall]
@[simp] theorem outstandingFall_pending (t : Traffic) (s : State) : (outstandingFall t s).pending = s.pending := by
  cases t <;> simp [outstandingFall]
@[simp] theorem outstandingFall_admission_refillPeriod (t : Traffic) (s : State) : (outstandingFall t s).admission.refillPeriod = s.admission.refillPeriod := by
  cases t <;> simp [outstandingFall]
@[simp] theorem outstandingFall_admission_refillStart (t : Traffic) (s : State) : (outstandingFall t s).admission.refillStart = s.admission.refillStart := by
  cases t <;> simp [outstandingFall]
@[simp] theorem outstandingFall_admission_poolLevel (t : Traffic) (s : State) : (outstandingFall t s).admission.poolLevel = s.admission.poolLevel := by
  cases t <;> simp [outstandingFall]
@[simp] theorem outstandingFall_admission_poolCap (t : Traffic) (s : State) : (outstandingFall t s).admission.poolCap = s.admission.poolCap := by
  cases t <;> simp [outstandingFall]
@[simp] theorem outstandingFall_admission_pointers (t : Traffic) (s : State) : (outstandingFall t s).admission.pointers = s.admission.pointers := by
  cases t <;> simp [outstandingFall]

@[simp] theorem entryFreed_control (s : State) : (entryFreed s).control = s.control := by
  simp [entryFreed]
@[simp] theorem entryFreed_intake (s : State) : (entryFreed s).intake = s.intake := by
  simp [entryFreed]
@[simp] theorem entryFreed_classifier (s : State) : (entryFreed s).classifier = s.classifier := by
  simp [entryFreed]
@[simp] theorem entryFreed_table (s : State) : (entryFreed s).table = s.table := by
  simp [entryFreed]
@[simp] theorem entryFreed_gauge (s : State) : (entryFreed s).gauge = s.gauge := by
  simp [entryFreed]
@[simp] theorem entryFreed_capture (s : State) : (entryFreed s).capture = s.capture := by
  simp [entryFreed]
@[simp] theorem entryFreed_link (s : State) : (entryFreed s).link = s.link := by
  simp [entryFreed]
@[simp] theorem entryFreed_answers (s : State) : (entryFreed s).answers = s.answers := by
  simp [entryFreed]
@[simp] theorem entryFreed_sentDown (s : State) : (entryFreed s).sentDown = s.sentDown := by
  simp [entryFreed]
@[simp] theorem entryFreed_sdo (s : State) : (entryFreed s).sdo = s.sdo := by
  simp [entryFreed]
@[simp] theorem entryFreed_freePicks (s : State) : (entryFreed s).freePicks = s.freePicks := by
  simp [entryFreed]
@[simp] theorem entryFreed_pending (s : State) : (entryFreed s).pending = s.pending := by
  simp [entryFreed]
@[simp] theorem entryFreed_admission_classes (s : State) : (entryFreed s).admission.classes = s.admission.classes := by
  simp [entryFreed]
@[simp] theorem entryFreed_admission_refillPeriod (s : State) : (entryFreed s).admission.refillPeriod = s.admission.refillPeriod := by
  simp [entryFreed]
@[simp] theorem entryFreed_admission_refillStart (s : State) : (entryFreed s).admission.refillStart = s.admission.refillStart := by
  simp [entryFreed]
@[simp] theorem entryFreed_admission_poolLevel (s : State) : (entryFreed s).admission.poolLevel = s.admission.poolLevel := by
  simp [entryFreed]
@[simp] theorem entryFreed_admission_poolCap (s : State) : (entryFreed s).admission.poolCap = s.admission.poolCap := by
  simp [entryFreed]
@[simp] theorem entryFreed_admission_pointers (s : State) : (entryFreed s).admission.pointers = s.admission.pointers := by
  simp [entryFreed]

@[simp] theorem charge_control (c : ClassId) (p : Payment) (n : Nat) (s : State) : (charge c p n s).control = s.control := by
  cases p <;> simp only [charge, updCls]
@[simp] theorem charge_intake (c : ClassId) (p : Payment) (n : Nat) (s : State) : (charge c p n s).intake = s.intake := by
  cases p <;> simp only [charge, updCls]
@[simp] theorem charge_classifier (c : ClassId) (p : Payment) (n : Nat) (s : State) : (charge c p n s).classifier = s.classifier := by
  cases p <;> simp only [charge, updCls]
@[simp] theorem charge_table (c : ClassId) (p : Payment) (n : Nat) (s : State) : (charge c p n s).table = s.table := by
  cases p <;> simp only [charge, updCls]
@[simp] theorem charge_gauge (c : ClassId) (p : Payment) (n : Nat) (s : State) : (charge c p n s).gauge = s.gauge := by
  cases p <;> simp only [charge, updCls]
@[simp] theorem charge_capture (c : ClassId) (p : Payment) (n : Nat) (s : State) : (charge c p n s).capture = s.capture := by
  cases p <;> simp only [charge, updCls]
@[simp] theorem charge_link (c : ClassId) (p : Payment) (n : Nat) (s : State) : (charge c p n s).link = s.link := by
  cases p <;> simp only [charge, updCls]
@[simp] theorem charge_answers (c : ClassId) (p : Payment) (n : Nat) (s : State) : (charge c p n s).answers = s.answers := by
  cases p <;> simp only [charge, updCls]
@[simp] theorem charge_sentDown (c : ClassId) (p : Payment) (n : Nat) (s : State) : (charge c p n s).sentDown = s.sentDown := by
  cases p <;> simp only [charge, updCls]
@[simp] theorem charge_sdo (c : ClassId) (p : Payment) (n : Nat) (s : State) : (charge c p n s).sdo = s.sdo := by
  cases p <;> simp only [charge, updCls]
@[simp] theorem charge_freePicks (c : ClassId) (p : Payment) (n : Nat) (s : State) : (charge c p n s).freePicks = s.freePicks := by
  cases p <;> simp only [charge, updCls]
@[simp] theorem charge_pending (c : ClassId) (p : Payment) (n : Nat) (s : State) : (charge c p n s).pending = s.pending := by
  cases p <;> simp only [charge, updCls]
@[simp] theorem charge_admission_refillPeriod (c : ClassId) (p : Payment) (n : Nat) (s : State) : (charge c p n s).admission.refillPeriod = s.admission.refillPeriod := by
  cases p <;> simp only [charge, updCls]
@[simp] theorem charge_admission_refillStart (c : ClassId) (p : Payment) (n : Nat) (s : State) : (charge c p n s).admission.refillStart = s.admission.refillStart := by
  cases p <;> simp only [charge, updCls]
@[simp] theorem charge_admission_poolCap (c : ClassId) (p : Payment) (n : Nat) (s : State) : (charge c p n s).admission.poolCap = s.admission.poolCap := by
  cases p <;> simp only [charge, updCls]
@[simp] theorem charge_admission_pointers (c : ClassId) (p : Payment) (n : Nat) (s : State) : (charge c p n s).admission.pointers = s.admission.pointers := by
  cases p <;> simp only [charge, updCls]
@[simp] theorem charge_admission_evalRunning (c : ClassId) (p : Payment) (n : Nat) (s : State) : (charge c p n s).admission.evalRunning = s.admission.evalRunning := by
  cases p <;> simp only [charge, updCls]
@[simp] theorem charge_admission_retryNotices (c : ClassId) (p : Payment) (n : Nat) (s : State) : (charge c p n s).admission.retryNotices = s.admission.retryNotices := by
  cases p <;> simp only [charge, updCls]

@[simp] theorem raceAdmission_intake (c : ClassId) (n : Nat) (s : State) : (raceAdmission c n s).intake = s.intake := by
  unfold raceAdmission; simp
@[simp] theorem raceAdmission_classifier (c : ClassId) (n : Nat) (s : State) : (raceAdmission c n s).classifier = s.classifier := by
  unfold raceAdmission; simp
@[simp] theorem raceAdmission_table (c : ClassId) (n : Nat) (s : State) : (raceAdmission c n s).table = s.table := by
  unfold raceAdmission; simp
@[simp] theorem raceAdmission_gauge (c : ClassId) (n : Nat) (s : State) : (raceAdmission c n s).gauge = s.gauge := by
  unfold raceAdmission; simp
@[simp] theorem raceAdmission_capture (c : ClassId) (n : Nat) (s : State) : (raceAdmission c n s).capture = s.capture := by
  unfold raceAdmission; simp
@[simp] theorem raceAdmission_link (c : ClassId) (n : Nat) (s : State) : (raceAdmission c n s).link = s.link := by
  unfold raceAdmission; simp
@[simp] theorem raceAdmission_answers (c : ClassId) (n : Nat) (s : State) : (raceAdmission c n s).answers = s.answers := by
  unfold raceAdmission; simp
@[simp] theorem raceAdmission_sentDown (c : ClassId) (n : Nat) (s : State) : (raceAdmission c n s).sentDown = s.sentDown := by
  unfold raceAdmission; simp
@[simp] theorem raceAdmission_sdo (c : ClassId) (n : Nat) (s : State) : (raceAdmission c n s).sdo = s.sdo := by
  unfold raceAdmission; simp
@[simp] theorem raceAdmission_freePicks (c : ClassId) (n : Nat) (s : State) : (raceAdmission c n s).freePicks = s.freePicks := by
  unfold raceAdmission; simp
@[simp] theorem raceAdmission_pending (c : ClassId) (n : Nat) (s : State) : (raceAdmission c n s).pending = s.pending := by
  unfold raceAdmission; simp
@[simp] theorem raceAdmission_admission_refillPeriod (c : ClassId) (n : Nat) (s : State) : (raceAdmission c n s).admission.refillPeriod = s.admission.refillPeriod := by
  unfold raceAdmission; simp
@[simp] theorem raceAdmission_admission_refillStart (c : ClassId) (n : Nat) (s : State) : (raceAdmission c n s).admission.refillStart = s.admission.refillStart := by
  unfold raceAdmission; simp
@[simp] theorem raceAdmission_admission_poolLevel (c : ClassId) (n : Nat) (s : State) : (raceAdmission c n s).admission.poolLevel = s.admission.poolLevel := by
  unfold raceAdmission; simp
@[simp] theorem raceAdmission_admission_poolCap (c : ClassId) (n : Nat) (s : State) : (raceAdmission c n s).admission.poolCap = s.admission.poolCap := by
  unfold raceAdmission; simp
@[simp] theorem raceAdmission_admission_pointers (c : ClassId) (n : Nat) (s : State) : (raceAdmission c n s).admission.pointers = s.admission.pointers := by
  unfold raceAdmission; simp
@[simp] theorem raceAdmission_admission_evalRunning (c : ClassId) (n : Nat) (s : State) : (raceAdmission c n s).admission.evalRunning = s.admission.evalRunning := by
  unfold raceAdmission; simp
@[simp] theorem raceAdmission_admission_retryNotices (c : ClassId) (n : Nat) (s : State) : (raceAdmission c n s).admission.retryNotices = s.admission.retryNotices := by
  unfold raceAdmission; simp
@[simp] theorem raceAdmission_time (c : ClassId) (n : Nat) (s : State) : (raceAdmission c n s).control.time = s.control.time := by
  unfold raceAdmission; simp
@[simp] theorem raceAdmission_resetHeld (c : ClassId) (n : Nat) (s : State) : (raceAdmission c n s).control.resetHeld = s.control.resetHeld := by
  unfold raceAdmission; simp
@[simp] theorem raceAdmission_mask0 (c : ClassId) (n : Nat) (s : State) : (raceAdmission c n s).control.mask0 = s.control.mask0 := by
  unfold raceAdmission; simp
@[simp] theorem raceAdmission_mask1 (c : ClassId) (n : Nat) (s : State) : (raceAdmission c n s).control.mask1 = s.control.mask1 := by
  unfold raceAdmission; simp

/-! ### The table -/

@[simp] theorem setEntry_control (i : EntryId) (e : Entry) (s : State) : (setEntry i e s).control = s.control := by
  simp only [setEntry]
@[simp] theorem setEntry_intake (i : EntryId) (e : Entry) (s : State) : (setEntry i e s).intake = s.intake := by
  simp only [setEntry]
@[simp] theorem setEntry_classifier (i : EntryId) (e : Entry) (s : State) : (setEntry i e s).classifier = s.classifier := by
  simp only [setEntry]
@[simp] theorem setEntry_admission (i : EntryId) (e : Entry) (s : State) : (setEntry i e s).admission = s.admission := by
  simp only [setEntry]
@[simp] theorem setEntry_gauge (i : EntryId) (e : Entry) (s : State) : (setEntry i e s).gauge = s.gauge := by
  simp only [setEntry]
@[simp] theorem setEntry_capture (i : EntryId) (e : Entry) (s : State) : (setEntry i e s).capture = s.capture := by
  simp only [setEntry]
@[simp] theorem setEntry_link (i : EntryId) (e : Entry) (s : State) : (setEntry i e s).link = s.link := by
  simp only [setEntry]
@[simp] theorem setEntry_answers (i : EntryId) (e : Entry) (s : State) : (setEntry i e s).answers = s.answers := by
  simp only [setEntry]
@[simp] theorem setEntry_sentDown (i : EntryId) (e : Entry) (s : State) : (setEntry i e s).sentDown = s.sentDown := by
  simp only [setEntry]
@[simp] theorem setEntry_sdo (i : EntryId) (e : Entry) (s : State) : (setEntry i e s).sdo = s.sdo := by
  simp only [setEntry]
@[simp] theorem setEntry_freePicks (i : EntryId) (e : Entry) (s : State) : (setEntry i e s).freePicks = s.freePicks := by
  simp only [setEntry]
@[simp] theorem setEntry_pending (i : EntryId) (e : Entry) (s : State) : (setEntry i e s).pending = s.pending := by
  simp only [setEntry]
@[simp] theorem setEntry_issueQ (i : EntryId) (e : Entry) (s : State) : (setEntry i e s).table.issueQ = s.table.issueQ := by
  simp only [setEntry]
@[simp] theorem setEntry_ageLimit (i : EntryId) (e : Entry) (s : State) : (setEntry i e s).table.ageLimit = s.table.ageLimit := by
  simp only [setEntry]
@[simp] theorem setEntry_passReserve (i : EntryId) (e : Entry) (s : State) : (setEntry i e s).table.passReserve = s.table.passReserve := by
  simp only [setEntry]
@[simp] theorem setEntry_entries (i : EntryId) (e : Entry) (s : State) : (setEntry i e s).table.entries = s.table.entries.set i e i.isLt := by
  simp only [setEntry]

@[simp] theorem leaveIssueQ_control (i : EntryId) (s : State) : (leaveIssueQ i s).control = s.control := by
  simp only [leaveIssueQ]
@[simp] theorem leaveIssueQ_intake (i : EntryId) (s : State) : (leaveIssueQ i s).intake = s.intake := by
  simp only [leaveIssueQ]
@[simp] theorem leaveIssueQ_classifier (i : EntryId) (s : State) : (leaveIssueQ i s).classifier = s.classifier := by
  simp only [leaveIssueQ]
@[simp] theorem leaveIssueQ_admission (i : EntryId) (s : State) : (leaveIssueQ i s).admission = s.admission := by
  simp only [leaveIssueQ]
@[simp] theorem leaveIssueQ_gauge (i : EntryId) (s : State) : (leaveIssueQ i s).gauge = s.gauge := by
  simp only [leaveIssueQ]
@[simp] theorem leaveIssueQ_capture (i : EntryId) (s : State) : (leaveIssueQ i s).capture = s.capture := by
  simp only [leaveIssueQ]
@[simp] theorem leaveIssueQ_link (i : EntryId) (s : State) : (leaveIssueQ i s).link = s.link := by
  simp only [leaveIssueQ]
@[simp] theorem leaveIssueQ_answers (i : EntryId) (s : State) : (leaveIssueQ i s).answers = s.answers := by
  simp only [leaveIssueQ]
@[simp] theorem leaveIssueQ_sentDown (i : EntryId) (s : State) : (leaveIssueQ i s).sentDown = s.sentDown := by
  simp only [leaveIssueQ]
@[simp] theorem leaveIssueQ_sdo (i : EntryId) (s : State) : (leaveIssueQ i s).sdo = s.sdo := by
  simp only [leaveIssueQ]
@[simp] theorem leaveIssueQ_freePicks (i : EntryId) (s : State) : (leaveIssueQ i s).freePicks = s.freePicks := by
  simp only [leaveIssueQ]
@[simp] theorem leaveIssueQ_pending (i : EntryId) (s : State) : (leaveIssueQ i s).pending = s.pending := by
  simp only [leaveIssueQ]
@[simp] theorem leaveIssueQ_entries (i : EntryId) (s : State) : (leaveIssueQ i s).table.entries = s.table.entries := by
  simp only [leaveIssueQ]
@[simp] theorem leaveIssueQ_ageLimit (i : EntryId) (s : State) : (leaveIssueQ i s).table.ageLimit = s.table.ageLimit := by
  simp only [leaveIssueQ]
@[simp] theorem leaveIssueQ_passReserve (i : EntryId) (s : State) : (leaveIssueQ i s).table.passReserve = s.table.passReserve := by
  simp only [leaveIssueQ]
@[simp] theorem leaveIssueQ_issueQ (i : EntryId) (s : State) : (leaveIssueQ i s).table.issueQ = s.table.issueQ.filter (fun j => j != i) := by
  simp only [leaveIssueQ]

@[simp] theorem enterTable_control (r : Req) (b : Bool) (s : State) : (enterTable r b s).control = s.control := by
  unfold enterTable; split <;> simp
@[simp] theorem enterTable_intake (r : Req) (b : Bool) (s : State) : (enterTable r b s).intake = s.intake := by
  unfold enterTable; split <;> simp
@[simp] theorem enterTable_classifier (r : Req) (b : Bool) (s : State) : (enterTable r b s).classifier = s.classifier := by
  unfold enterTable; split <;> simp
@[simp] theorem enterTable_gauge (r : Req) (b : Bool) (s : State) : (enterTable r b s).gauge = s.gauge := by
  unfold enterTable; split <;> simp
@[simp] theorem enterTable_capture (r : Req) (b : Bool) (s : State) : (enterTable r b s).capture = s.capture := by
  unfold enterTable; split <;> simp
@[simp] theorem enterTable_link (r : Req) (b : Bool) (s : State) : (enterTable r b s).link = s.link := by
  unfold enterTable; split <;> simp
@[simp] theorem enterTable_answers (r : Req) (b : Bool) (s : State) : (enterTable r b s).answers = s.answers := by
  unfold enterTable; split <;> simp
@[simp] theorem enterTable_sentDown (r : Req) (b : Bool) (s : State) : (enterTable r b s).sentDown = s.sentDown := by
  unfold enterTable; split <;> simp
@[simp] theorem enterTable_sdo (r : Req) (b : Bool) (s : State) : (enterTable r b s).sdo = s.sdo := by
  unfold enterTable; split <;> simp
@[simp] theorem enterTable_freePicks (r : Req) (b : Bool) (s : State) : (enterTable r b s).freePicks = s.freePicks := by
  unfold enterTable; split <;> simp
@[simp] theorem enterTable_pending (r : Req) (b : Bool) (s : State) : (enterTable r b s).pending = s.pending := by
  unfold enterTable; split <;> simp
@[simp] theorem enterTable_admission_refillPeriod (r : Req) (b : Bool) (s : State) : (enterTable r b s).admission.refillPeriod = s.admission.refillPeriod := by
  unfold enterTable; split <;> simp
@[simp] theorem enterTable_admission_refillStart (r : Req) (b : Bool) (s : State) : (enterTable r b s).admission.refillStart = s.admission.refillStart := by
  unfold enterTable; split <;> simp
@[simp] theorem enterTable_admission_poolLevel (r : Req) (b : Bool) (s : State) : (enterTable r b s).admission.poolLevel = s.admission.poolLevel := by
  unfold enterTable; split <;> simp
@[simp] theorem enterTable_admission_poolCap (r : Req) (b : Bool) (s : State) : (enterTable r b s).admission.poolCap = s.admission.poolCap := by
  unfold enterTable; split <;> simp
@[simp] theorem enterTable_admission_pointers (r : Req) (b : Bool) (s : State) : (enterTable r b s).admission.pointers = s.admission.pointers := by
  unfold enterTable; split <;> simp
@[simp] theorem enterTable_admission_evalRunning (r : Req) (b : Bool) (s : State) : (enterTable r b s).admission.evalRunning = s.admission.evalRunning := by
  unfold enterTable; split <;> simp
@[simp] theorem enterTable_admission_retryNotices (r : Req) (b : Bool) (s : State) : (enterTable r b s).admission.retryNotices = s.admission.retryNotices := by
  unfold enterTable; split <;> simp
@[simp] theorem enterTable_ageLimit (r : Req) (b : Bool) (s : State) : (enterTable r b s).table.ageLimit = s.table.ageLimit := by
  unfold enterTable; split <;> simp
@[simp] theorem enterTable_passReserve (r : Req) (b : Bool) (s : State) : (enterTable r b s).table.passReserve = s.table.passReserve := by
  unfold enterTable; split <;> simp

/-! ### Tallies, gauges and capture -/

@[simp] theorem updGauge_control (f : GaugeBlock → GaugeBlock) (s : State) : (updGauge f s).control = s.control := rfl
@[simp] theorem updGauge_intake (f : GaugeBlock → GaugeBlock) (s : State) : (updGauge f s).intake = s.intake := rfl
@[simp] theorem updGauge_classifier (f : GaugeBlock → GaugeBlock) (s : State) : (updGauge f s).classifier = s.classifier := rfl
@[simp] theorem updGauge_admission (f : GaugeBlock → GaugeBlock) (s : State) : (updGauge f s).admission = s.admission := rfl
@[simp] theorem updGauge_table (f : GaugeBlock → GaugeBlock) (s : State) : (updGauge f s).table = s.table := rfl
@[simp] theorem updGauge_capture (f : GaugeBlock → GaugeBlock) (s : State) : (updGauge f s).capture = s.capture := rfl
@[simp] theorem updGauge_link (f : GaugeBlock → GaugeBlock) (s : State) : (updGauge f s).link = s.link := rfl
@[simp] theorem updGauge_answers (f : GaugeBlock → GaugeBlock) (s : State) : (updGauge f s).answers = s.answers := rfl
@[simp] theorem updGauge_sentDown (f : GaugeBlock → GaugeBlock) (s : State) : (updGauge f s).sentDown = s.sentDown := rfl
@[simp] theorem updGauge_sdo (f : GaugeBlock → GaugeBlock) (s : State) : (updGauge f s).sdo = s.sdo := rfl
@[simp] theorem updGauge_freePicks (f : GaugeBlock → GaugeBlock) (s : State) : (updGauge f s).freePicks = s.freePicks := rfl
@[simp] theorem updGauge_pending (f : GaugeBlock → GaugeBlock) (s : State) : (updGauge f s).pending = s.pending := rfl
@[simp] theorem updGauge_gauge (f : GaugeBlock → GaugeBlock) (s : State) : (updGauge f s).gauge = f s.gauge := rfl

@[simp] theorem tally_control (c : ClassId) (f : Tallies → Tallies) (s : State) : (tally c f s).control = s.control := by
  simp only [tally]
@[simp] theorem tally_intake (c : ClassId) (f : Tallies → Tallies) (s : State) : (tally c f s).intake = s.intake := by
  simp only [tally]
@[simp] theorem tally_classifier (c : ClassId) (f : Tallies → Tallies) (s : State) : (tally c f s).classifier = s.classifier := by
  simp only [tally]
@[simp] theorem tally_admission (c : ClassId) (f : Tallies → Tallies) (s : State) : (tally c f s).admission = s.admission := by
  simp only [tally]
@[simp] theorem tally_table (c : ClassId) (f : Tallies → Tallies) (s : State) : (tally c f s).table = s.table := by
  simp only [tally]
@[simp] theorem tally_capture (c : ClassId) (f : Tallies → Tallies) (s : State) : (tally c f s).capture = s.capture := by
  simp only [tally]
@[simp] theorem tally_link (c : ClassId) (f : Tallies → Tallies) (s : State) : (tally c f s).link = s.link := by
  simp only [tally]
@[simp] theorem tally_answers (c : ClassId) (f : Tallies → Tallies) (s : State) : (tally c f s).answers = s.answers := by
  simp only [tally]
@[simp] theorem tally_sentDown (c : ClassId) (f : Tallies → Tallies) (s : State) : (tally c f s).sentDown = s.sentDown := by
  simp only [tally]
@[simp] theorem tally_sdo (c : ClassId) (f : Tallies → Tallies) (s : State) : (tally c f s).sdo = s.sdo := by
  simp only [tally]
@[simp] theorem tally_freePicks (c : ClassId) (f : Tallies → Tallies) (s : State) : (tally c f s).freePicks = s.freePicks := by
  simp only [tally]
@[simp] theorem tally_pending (c : ClassId) (f : Tallies → Tallies) (s : State) : (tally c f s).pending = s.pending := by
  simp only [tally]

@[simp] theorem tallyOf_control (t : Traffic) (f : Tallies → Tallies) (s : State) : (tallyOf t f s).control = s.control := by
  cases t <;> simp [tallyOf]
@[simp] theorem tallyOf_intake (t : Traffic) (f : Tallies → Tallies) (s : State) : (tallyOf t f s).intake = s.intake := by
  cases t <;> simp [tallyOf]
@[simp] theorem tallyOf_classifier (t : Traffic) (f : Tallies → Tallies) (s : State) : (tallyOf t f s).classifier = s.classifier := by
  cases t <;> simp [tallyOf]
@[simp] theorem tallyOf_admission (t : Traffic) (f : Tallies → Tallies) (s : State) : (tallyOf t f s).admission = s.admission := by
  cases t <;> simp [tallyOf]
@[simp] theorem tallyOf_table (t : Traffic) (f : Tallies → Tallies) (s : State) : (tallyOf t f s).table = s.table := by
  cases t <;> simp [tallyOf]
@[simp] theorem tallyOf_capture (t : Traffic) (f : Tallies → Tallies) (s : State) : (tallyOf t f s).capture = s.capture := by
  cases t <;> simp [tallyOf]
@[simp] theorem tallyOf_link (t : Traffic) (f : Tallies → Tallies) (s : State) : (tallyOf t f s).link = s.link := by
  cases t <;> simp [tallyOf]
@[simp] theorem tallyOf_answers (t : Traffic) (f : Tallies → Tallies) (s : State) : (tallyOf t f s).answers = s.answers := by
  cases t <;> simp [tallyOf]
@[simp] theorem tallyOf_sentDown (t : Traffic) (f : Tallies → Tallies) (s : State) : (tallyOf t f s).sentDown = s.sentDown := by
  cases t <;> simp [tallyOf]
@[simp] theorem tallyOf_sdo (t : Traffic) (f : Tallies → Tallies) (s : State) : (tallyOf t f s).sdo = s.sdo := by
  cases t <;> simp [tallyOf]
@[simp] theorem tallyOf_freePicks (t : Traffic) (f : Tallies → Tallies) (s : State) : (tallyOf t f s).freePicks = s.freePicks := by
  cases t <;> simp [tallyOf]
@[simp] theorem tallyOf_pending (t : Traffic) (f : Tallies → Tallies) (s : State) : (tallyOf t f s).pending = s.pending := by
  cases t <;> simp [tallyOf]

@[simp] theorem gaugeAdmission_control (t : Traffic) (k : ReqKind) (n : Nat) (s : State) : (gaugeAdmission t k n s).control = s.control := by
  simp only [gaugeAdmission, updGauge]
@[simp] theorem gaugeAdmission_intake (t : Traffic) (k : ReqKind) (n : Nat) (s : State) : (gaugeAdmission t k n s).intake = s.intake := by
  simp only [gaugeAdmission, updGauge]
@[simp] theorem gaugeAdmission_classifier (t : Traffic) (k : ReqKind) (n : Nat) (s : State) : (gaugeAdmission t k n s).classifier = s.classifier := by
  simp only [gaugeAdmission, updGauge]
@[simp] theorem gaugeAdmission_admission (t : Traffic) (k : ReqKind) (n : Nat) (s : State) : (gaugeAdmission t k n s).admission = s.admission := by
  simp only [gaugeAdmission, updGauge]
@[simp] theorem gaugeAdmission_table (t : Traffic) (k : ReqKind) (n : Nat) (s : State) : (gaugeAdmission t k n s).table = s.table := by
  simp only [gaugeAdmission, updGauge]
@[simp] theorem gaugeAdmission_capture (t : Traffic) (k : ReqKind) (n : Nat) (s : State) : (gaugeAdmission t k n s).capture = s.capture := by
  simp only [gaugeAdmission, updGauge]
@[simp] theorem gaugeAdmission_link (t : Traffic) (k : ReqKind) (n : Nat) (s : State) : (gaugeAdmission t k n s).link = s.link := by
  simp only [gaugeAdmission, updGauge]
@[simp] theorem gaugeAdmission_answers (t : Traffic) (k : ReqKind) (n : Nat) (s : State) : (gaugeAdmission t k n s).answers = s.answers := by
  simp only [gaugeAdmission, updGauge]
@[simp] theorem gaugeAdmission_sentDown (t : Traffic) (k : ReqKind) (n : Nat) (s : State) : (gaugeAdmission t k n s).sentDown = s.sentDown := by
  simp only [gaugeAdmission, updGauge]
@[simp] theorem gaugeAdmission_sdo (t : Traffic) (k : ReqKind) (n : Nat) (s : State) : (gaugeAdmission t k n s).sdo = s.sdo := by
  simp only [gaugeAdmission, updGauge]
@[simp] theorem gaugeAdmission_freePicks (t : Traffic) (k : ReqKind) (n : Nat) (s : State) : (gaugeAdmission t k n s).freePicks = s.freePicks := by
  simp only [gaugeAdmission, updGauge]
@[simp] theorem gaugeAdmission_pending (t : Traffic) (k : ReqKind) (n : Nat) (s : State) : (gaugeAdmission t k n s).pending = s.pending := by
  simp only [gaugeAdmission, updGauge]

@[simp] theorem gaugeBounce_control (t : Traffic) (s : State) : (gaugeBounce t s).control = s.control := by
  simp only [gaugeBounce, updGauge]
@[simp] theorem gaugeBounce_intake (t : Traffic) (s : State) : (gaugeBounce t s).intake = s.intake := by
  simp only [gaugeBounce, updGauge]
@[simp] theorem gaugeBounce_classifier (t : Traffic) (s : State) : (gaugeBounce t s).classifier = s.classifier := by
  simp only [gaugeBounce, updGauge]
@[simp] theorem gaugeBounce_admission (t : Traffic) (s : State) : (gaugeBounce t s).admission = s.admission := by
  simp only [gaugeBounce, updGauge]
@[simp] theorem gaugeBounce_table (t : Traffic) (s : State) : (gaugeBounce t s).table = s.table := by
  simp only [gaugeBounce, updGauge]
@[simp] theorem gaugeBounce_capture (t : Traffic) (s : State) : (gaugeBounce t s).capture = s.capture := by
  simp only [gaugeBounce, updGauge]
@[simp] theorem gaugeBounce_link (t : Traffic) (s : State) : (gaugeBounce t s).link = s.link := by
  simp only [gaugeBounce, updGauge]
@[simp] theorem gaugeBounce_answers (t : Traffic) (s : State) : (gaugeBounce t s).answers = s.answers := by
  simp only [gaugeBounce, updGauge]
@[simp] theorem gaugeBounce_sentDown (t : Traffic) (s : State) : (gaugeBounce t s).sentDown = s.sentDown := by
  simp only [gaugeBounce, updGauge]
@[simp] theorem gaugeBounce_sdo (t : Traffic) (s : State) : (gaugeBounce t s).sdo = s.sdo := by
  simp only [gaugeBounce, updGauge]
@[simp] theorem gaugeBounce_freePicks (t : Traffic) (s : State) : (gaugeBounce t s).freePicks = s.freePicks := by
  simp only [gaugeBounce, updGauge]
@[simp] theorem gaugeBounce_pending (t : Traffic) (s : State) : (gaugeBounce t s).pending = s.pending := by
  simp only [gaugeBounce, updGauge]

@[simp] theorem offerRecord_intake (k : RecKind) (b : RecBody) (s : State) : (offerRecord k b s).intake = s.intake := by
  unfold offerRecord; simp
@[simp] theorem offerRecord_classifier (k : RecKind) (b : RecBody) (s : State) : (offerRecord k b s).classifier = s.classifier := by
  unfold offerRecord; simp
@[simp] theorem offerRecord_admission (k : RecKind) (b : RecBody) (s : State) : (offerRecord k b s).admission = s.admission := by
  unfold offerRecord; simp
@[simp] theorem offerRecord_table (k : RecKind) (b : RecBody) (s : State) : (offerRecord k b s).table = s.table := by
  unfold offerRecord; simp
@[simp] theorem offerRecord_gauge (k : RecKind) (b : RecBody) (s : State) : (offerRecord k b s).gauge = s.gauge := by
  unfold offerRecord; simp
@[simp] theorem offerRecord_link (k : RecKind) (b : RecBody) (s : State) : (offerRecord k b s).link = s.link := by
  unfold offerRecord; simp
@[simp] theorem offerRecord_answers (k : RecKind) (b : RecBody) (s : State) : (offerRecord k b s).answers = s.answers := by
  unfold offerRecord; simp
@[simp] theorem offerRecord_sentDown (k : RecKind) (b : RecBody) (s : State) : (offerRecord k b s).sentDown = s.sentDown := by
  unfold offerRecord; simp
@[simp] theorem offerRecord_sdo (k : RecKind) (b : RecBody) (s : State) : (offerRecord k b s).sdo = s.sdo := by
  unfold offerRecord; simp
@[simp] theorem offerRecord_freePicks (k : RecKind) (b : RecBody) (s : State) : (offerRecord k b s).freePicks = s.freePicks := by
  unfold offerRecord; simp
@[simp] theorem offerRecord_pending (k : RecKind) (b : RecBody) (s : State) : (offerRecord k b s).pending = s.pending := by
  unfold offerRecord; simp
@[simp] theorem offerRecord_time (k : RecKind) (b : RecBody) (s : State) : (offerRecord k b s).control.time = s.control.time := by
  unfold offerRecord; simp
@[simp] theorem offerRecord_resetHeld (k : RecKind) (b : RecBody) (s : State) : (offerRecord k b s).control.resetHeld = s.control.resetHeld := by
  unfold offerRecord; simp
@[simp] theorem offerRecord_mask0 (k : RecKind) (b : RecBody) (s : State) : (offerRecord k b s).control.mask0 = s.control.mask0 := by
  unfold offerRecord; simp
@[simp] theorem offerRecord_mask1 (k : RecKind) (b : RecBody) (s : State) : (offerRecord k b s).control.mask1 = s.control.mask1 := by
  unfold offerRecord; simp
@[simp] theorem offerRecord_capture (k : RecKind) (b : RecBody) (s : State) : (offerRecord k b s).capture = s.capture.offer { kind := k, stamp := s.control.time, body := b } := by
  unfold offerRecord; simp

@[simp] theorem offerTrigger_intake (x : TrigSource) (b : RecBody) (s : State) : (offerTrigger x b s).intake = s.intake := by
  simp [offerTrigger]
@[simp] theorem offerTrigger_classifier (x : TrigSource) (b : RecBody) (s : State) : (offerTrigger x b s).classifier = s.classifier := by
  simp [offerTrigger]
@[simp] theorem offerTrigger_admission (x : TrigSource) (b : RecBody) (s : State) : (offerTrigger x b s).admission = s.admission := by
  simp [offerTrigger]
@[simp] theorem offerTrigger_table (x : TrigSource) (b : RecBody) (s : State) : (offerTrigger x b s).table = s.table := by
  simp [offerTrigger]
@[simp] theorem offerTrigger_gauge (x : TrigSource) (b : RecBody) (s : State) : (offerTrigger x b s).gauge = s.gauge := by
  simp [offerTrigger]
@[simp] theorem offerTrigger_link (x : TrigSource) (b : RecBody) (s : State) : (offerTrigger x b s).link = s.link := by
  simp [offerTrigger]
@[simp] theorem offerTrigger_answers (x : TrigSource) (b : RecBody) (s : State) : (offerTrigger x b s).answers = s.answers := by
  simp [offerTrigger]
@[simp] theorem offerTrigger_sentDown (x : TrigSource) (b : RecBody) (s : State) : (offerTrigger x b s).sentDown = s.sentDown := by
  simp [offerTrigger]
@[simp] theorem offerTrigger_sdo (x : TrigSource) (b : RecBody) (s : State) : (offerTrigger x b s).sdo = s.sdo := by
  simp [offerTrigger]
@[simp] theorem offerTrigger_freePicks (x : TrigSource) (b : RecBody) (s : State) : (offerTrigger x b s).freePicks = s.freePicks := by
  simp [offerTrigger]
@[simp] theorem offerTrigger_pending (x : TrigSource) (b : RecBody) (s : State) : (offerTrigger x b s).pending = s.pending := by
  simp [offerTrigger]
@[simp] theorem offerTrigger_time (x : TrigSource) (b : RecBody) (s : State) : (offerTrigger x b s).control.time = s.control.time := by
  simp [offerTrigger]
@[simp] theorem offerTrigger_resetHeld (x : TrigSource) (b : RecBody) (s : State) : (offerTrigger x b s).control.resetHeld = s.control.resetHeld := by
  simp [offerTrigger]
@[simp] theorem offerTrigger_mask0 (x : TrigSource) (b : RecBody) (s : State) : (offerTrigger x b s).control.mask0 = s.control.mask0 := by
  simp [offerTrigger]
@[simp] theorem offerTrigger_mask1 (x : TrigSource) (b : RecBody) (s : State) : (offerTrigger x b s).control.mask1 = s.control.mask1 := by
  simp [offerTrigger]
@[simp] theorem offerTrigger_capture (x : TrigSource) (b : RecBody) (s : State) : (offerTrigger x b s).capture = s.capture.trigger x s.control.time b := by
  simp [offerTrigger]

/-! ### The service link -/

@[simp] theorem updLink_control (f : Link → Link) (s : State) : (updLink f s).control = s.control := rfl
@[simp] theorem updLink_intake (f : Link → Link) (s : State) : (updLink f s).intake = s.intake := rfl
@[simp] theorem updLink_classifier (f : Link → Link) (s : State) : (updLink f s).classifier = s.classifier := rfl
@[simp] theorem updLink_admission (f : Link → Link) (s : State) : (updLink f s).admission = s.admission := rfl
@[simp] theorem updLink_table (f : Link → Link) (s : State) : (updLink f s).table = s.table := rfl
@[simp] theorem updLink_gauge (f : Link → Link) (s : State) : (updLink f s).gauge = s.gauge := rfl
@[simp] theorem updLink_capture (f : Link → Link) (s : State) : (updLink f s).capture = s.capture := rfl
@[simp] theorem updLink_answers (f : Link → Link) (s : State) : (updLink f s).answers = s.answers := rfl
@[simp] theorem updLink_sentDown (f : Link → Link) (s : State) : (updLink f s).sentDown = s.sentDown := rfl
@[simp] theorem updLink_sdo (f : Link → Link) (s : State) : (updLink f s).sdo = s.sdo := rfl
@[simp] theorem updLink_freePicks (f : Link → Link) (s : State) : (updLink f s).freePicks = s.freePicks := rfl
@[simp] theorem updLink_pending (f : Link → Link) (s : State) : (updLink f s).pending = s.pending := rfl
@[simp] theorem updLink_link (f : Link → Link) (s : State) : (updLink f s).link = f s.link := rfl

@[simp] theorem buildReply_control (r : Reply) (s : State) : (buildReply r s).control = s.control := rfl
@[simp] theorem buildReply_intake (r : Reply) (s : State) : (buildReply r s).intake = s.intake := rfl
@[simp] theorem buildReply_classifier (r : Reply) (s : State) : (buildReply r s).classifier = s.classifier := rfl
@[simp] theorem buildReply_admission (r : Reply) (s : State) : (buildReply r s).admission = s.admission := rfl
@[simp] theorem buildReply_table (r : Reply) (s : State) : (buildReply r s).table = s.table := rfl
@[simp] theorem buildReply_gauge (r : Reply) (s : State) : (buildReply r s).gauge = s.gauge := rfl
@[simp] theorem buildReply_capture (r : Reply) (s : State) : (buildReply r s).capture = s.capture := rfl
@[simp] theorem buildReply_answers (r : Reply) (s : State) : (buildReply r s).answers = s.answers := rfl
@[simp] theorem buildReply_sentDown (r : Reply) (s : State) : (buildReply r s).sentDown = s.sentDown := rfl
@[simp] theorem buildReply_sdo (r : Reply) (s : State) : (buildReply r s).sdo = s.sdo := rfl
@[simp] theorem buildReply_freePicks (r : Reply) (s : State) : (buildReply r s).freePicks = s.freePicks := rfl
@[simp] theorem buildReply_pending (r : Reply) (s : State) : (buildReply r s).pending = s.pending := rfl

@[simp] theorem goOn_control (s : State) : (goOn s).control = s.control := by
  unfold goOn; split <;> (try split) <;> simp
@[simp] theorem goOn_intake (s : State) : (goOn s).intake = s.intake := by
  unfold goOn; split <;> (try split) <;> simp
@[simp] theorem goOn_classifier (s : State) : (goOn s).classifier = s.classifier := by
  unfold goOn; split <;> (try split) <;> simp
@[simp] theorem goOn_admission (s : State) : (goOn s).admission = s.admission := by
  unfold goOn; split <;> (try split) <;> simp
@[simp] theorem goOn_table (s : State) : (goOn s).table = s.table := by
  unfold goOn; split <;> (try split) <;> simp
@[simp] theorem goOn_gauge (s : State) : (goOn s).gauge = s.gauge := by
  unfold goOn; split <;> (try split) <;> simp
@[simp] theorem goOn_capture (s : State) : (goOn s).capture = s.capture := by
  unfold goOn; split <;> (try split) <;> simp
@[simp] theorem goOn_answers (s : State) : (goOn s).answers = s.answers := by
  unfold goOn; split <;> (try split) <;> simp
@[simp] theorem goOn_sentDown (s : State) : (goOn s).sentDown = s.sentDown := by
  unfold goOn; split <;> (try split) <;> simp
@[simp] theorem goOn_sdo (s : State) : (goOn s).sdo = s.sdo := by
  unfold goOn; split <;> (try split) <;> simp
@[simp] theorem goOn_freePicks (s : State) : (goOn s).freePicks = s.freePicks := by
  unfold goOn; split <;> (try split) <;> simp
@[simp] theorem goOn_pending (s : State) : (goOn s).pending = s.pending := by
  unfold goOn; split <;> (try split) <;> simp

@[simp] theorem endAwait_control (n : Nat) (w : WaitWay) (s : State) : (endAwait n w s).control = s.control := by
  unfold endAwait; simp
@[simp] theorem endAwait_intake (n : Nat) (w : WaitWay) (s : State) : (endAwait n w s).intake = s.intake := by
  unfold endAwait; simp
@[simp] theorem endAwait_classifier (n : Nat) (w : WaitWay) (s : State) : (endAwait n w s).classifier = s.classifier := by
  unfold endAwait; simp
@[simp] theorem endAwait_admission (n : Nat) (w : WaitWay) (s : State) : (endAwait n w s).admission = s.admission := by
  unfold endAwait; simp
@[simp] theorem endAwait_table (n : Nat) (w : WaitWay) (s : State) : (endAwait n w s).table = s.table := by
  unfold endAwait; simp
@[simp] theorem endAwait_gauge (n : Nat) (w : WaitWay) (s : State) : (endAwait n w s).gauge = s.gauge := by
  unfold endAwait; simp
@[simp] theorem endAwait_capture (n : Nat) (w : WaitWay) (s : State) : (endAwait n w s).capture = s.capture := by
  unfold endAwait; simp
@[simp] theorem endAwait_answers (n : Nat) (w : WaitWay) (s : State) : (endAwait n w s).answers = s.answers := by
  unfold endAwait; simp
@[simp] theorem endAwait_sentDown (n : Nat) (w : WaitWay) (s : State) : (endAwait n w s).sentDown = s.sentDown := by
  unfold endAwait; simp
@[simp] theorem endAwait_sdo (n : Nat) (w : WaitWay) (s : State) : (endAwait n w s).sdo = s.sdo := by
  unfold endAwait; simp
@[simp] theorem endAwait_freePicks (n : Nat) (w : WaitWay) (s : State) : (endAwait n w s).freePicks = s.freePicks := by
  unfold endAwait; simp
@[simp] theorem endAwait_pending (n : Nat) (w : WaitWay) (s : State) : (endAwait n w s).pending = s.pending := by
  unfold endAwait; simp

@[simp] theorem settle_control (s : State) : (settle s).control = s.control := by
  unfold settle; split <;> (try split) <;> simp
@[simp] theorem settle_intake (s : State) : (settle s).intake = s.intake := by
  unfold settle; split <;> (try split) <;> simp
@[simp] theorem settle_classifier (s : State) : (settle s).classifier = s.classifier := by
  unfold settle; split <;> (try split) <;> simp
@[simp] theorem settle_admission (s : State) : (settle s).admission = s.admission := by
  unfold settle; split <;> (try split) <;> simp
@[simp] theorem settle_table (s : State) : (settle s).table = s.table := by
  unfold settle; split <;> (try split) <;> simp
@[simp] theorem settle_gauge (s : State) : (settle s).gauge = s.gauge := by
  unfold settle; split <;> (try split) <;> simp
@[simp] theorem settle_capture (s : State) : (settle s).capture = s.capture := by
  unfold settle; split <;> (try split) <;> simp
@[simp] theorem settle_answers (s : State) : (settle s).answers = s.answers := by
  unfold settle; split <;> (try split) <;> simp
@[simp] theorem settle_sentDown (s : State) : (settle s).sentDown = s.sentDown := by
  unfold settle; split <;> (try split) <;> simp
@[simp] theorem settle_sdo (s : State) : (settle s).sdo = s.sdo := by
  unfold settle; split <;> (try split) <;> simp
@[simp] theorem settle_freePicks (s : State) : (settle s).freePicks = s.freePicks := by
  unfold settle; split <;> (try split) <;> simp
@[simp] theorem settle_pending (s : State) : (settle s).pending = s.pending := by
  unfold settle; split <;> (try split) <;> simp

@[simp] theorem updCounters_control (f : LinkCounters → LinkCounters) (s : State) : (updCounters f s).control = s.control := rfl
@[simp] theorem updCounters_intake (f : LinkCounters → LinkCounters) (s : State) : (updCounters f s).intake = s.intake := rfl
@[simp] theorem updCounters_classifier (f : LinkCounters → LinkCounters) (s : State) : (updCounters f s).classifier = s.classifier := rfl
@[simp] theorem updCounters_admission (f : LinkCounters → LinkCounters) (s : State) : (updCounters f s).admission = s.admission := rfl
@[simp] theorem updCounters_table (f : LinkCounters → LinkCounters) (s : State) : (updCounters f s).table = s.table := rfl
@[simp] theorem updCounters_gauge (f : LinkCounters → LinkCounters) (s : State) : (updCounters f s).gauge = s.gauge := rfl
@[simp] theorem updCounters_capture (f : LinkCounters → LinkCounters) (s : State) : (updCounters f s).capture = s.capture := rfl
@[simp] theorem updCounters_answers (f : LinkCounters → LinkCounters) (s : State) : (updCounters f s).answers = s.answers := rfl
@[simp] theorem updCounters_sentDown (f : LinkCounters → LinkCounters) (s : State) : (updCounters f s).sentDown = s.sentDown := rfl
@[simp] theorem updCounters_sdo (f : LinkCounters → LinkCounters) (s : State) : (updCounters f s).sdo = s.sdo := rfl
@[simp] theorem updCounters_freePicks (f : LinkCounters → LinkCounters) (s : State) : (updCounters f s).freePicks = s.freePicks := rfl
@[simp] theorem updCounters_pending (f : LinkCounters → LinkCounters) (s : State) : (updCounters f s).pending = s.pending := rfl

@[simp] theorem setLink_control (x : LinkState) (s : State) : (setLink x s).control = s.control := rfl
@[simp] theorem setLink_intake (x : LinkState) (s : State) : (setLink x s).intake = s.intake := rfl
@[simp] theorem setLink_classifier (x : LinkState) (s : State) : (setLink x s).classifier = s.classifier := rfl
@[simp] theorem setLink_admission (x : LinkState) (s : State) : (setLink x s).admission = s.admission := rfl
@[simp] theorem setLink_table (x : LinkState) (s : State) : (setLink x s).table = s.table := rfl
@[simp] theorem setLink_gauge (x : LinkState) (s : State) : (setLink x s).gauge = s.gauge := rfl
@[simp] theorem setLink_capture (x : LinkState) (s : State) : (setLink x s).capture = s.capture := rfl
@[simp] theorem setLink_answers (x : LinkState) (s : State) : (setLink x s).answers = s.answers := rfl
@[simp] theorem setLink_sentDown (x : LinkState) (s : State) : (setLink x s).sentDown = s.sentDown := rfl
@[simp] theorem setLink_sdo (x : LinkState) (s : State) : (setLink x s).sdo = s.sdo := rfl
@[simp] theorem setLink_freePicks (x : LinkState) (s : State) : (setLink x s).freePicks = s.freePicks := rfl
@[simp] theorem setLink_pending (x : LinkState) (s : State) : (setLink x s).pending = s.pending := rfl

/-! ### SEL, SDO and free values -/

@[simp] theorem clockZeros_control (n : Nat) (s : State) : (clockZeros n s).control = s.control := rfl
@[simp] theorem clockZeros_intake (n : Nat) (s : State) : (clockZeros n s).intake = s.intake := rfl
@[simp] theorem clockZeros_classifier (n : Nat) (s : State) :
    (clockZeros n s).classifier = s.classifier := rfl
@[simp] theorem clockZeros_admission (n : Nat) (s : State) : (clockZeros n s).admission = s.admission := rfl
@[simp] theorem clockZeros_table (n : Nat) (s : State) : (clockZeros n s).table = s.table := rfl
@[simp] theorem clockZeros_gauge (n : Nat) (s : State) : (clockZeros n s).gauge = s.gauge := rfl
@[simp] theorem clockZeros_capture (n : Nat) (s : State) : (clockZeros n s).capture = s.capture := rfl
@[simp] theorem clockZeros_link (n : Nat) (s : State) : (clockZeros n s).link = s.link := rfl
@[simp] theorem clockZeros_answers (n : Nat) (s : State) : (clockZeros n s).answers = s.answers := rfl
@[simp] theorem clockZeros_sentDown (n : Nat) (s : State) : (clockZeros n s).sentDown = s.sentDown := rfl
@[simp] theorem clockZeros_sdo (n : Nat) (s : State) :
    (clockZeros n s).sdo = s.sdo ++ List.replicate n 0 := rfl
@[simp] theorem clockZeros_freePicks (n : Nat) (s : State) : (clockZeros n s).freePicks = s.freePicks := rfl
@[simp] theorem clockZeros_pending (n : Nat) (s : State) : (clockZeros n s).pending = s.pending := rfl

@[simp] theorem clockTruncated_control (s : State) : (clockTruncated s).control = s.control := rfl
@[simp] theorem clockTruncated_intake (s : State) : (clockTruncated s).intake = s.intake := rfl
@[simp] theorem clockTruncated_classifier (s : State) : (clockTruncated s).classifier = s.classifier := rfl
@[simp] theorem clockTruncated_admission (s : State) : (clockTruncated s).admission = s.admission := rfl
@[simp] theorem clockTruncated_table (s : State) : (clockTruncated s).table = s.table := rfl
@[simp] theorem clockTruncated_gauge (s : State) : (clockTruncated s).gauge = s.gauge := rfl
@[simp] theorem clockTruncated_capture (s : State) : (clockTruncated s).capture = s.capture := rfl
@[simp] theorem clockTruncated_link (s : State) : (clockTruncated s).link = s.link := rfl
@[simp] theorem clockTruncated_answers (s : State) : (clockTruncated s).answers = s.answers := rfl
@[simp] theorem clockTruncated_sentDown (s : State) : (clockTruncated s).sentDown = s.sentDown := rfl
@[simp] theorem clockTruncated_sdo (s : State) :
    (clockTruncated s).sdo = s.sdo ++ List.replicate (Config.truncatedBytes s.freePicks) 0 := rfl
@[simp] theorem clockTruncated_freePicks (s : State) : (clockTruncated s).freePicks = s.freePicks + 1 := rfl
@[simp] theorem clockTruncated_pending (s : State) : (clockTruncated s).pending = s.pending := rfl

@[simp] theorem setSel_control (x : Sel) (s : State) : (setSel x s).control = s.control := rfl
@[simp] theorem setSel_intake (x : Sel) (s : State) : (setSel x s).intake = s.intake := rfl
@[simp] theorem setSel_classifier (x : Sel) (s : State) : (setSel x s).classifier = s.classifier := rfl
@[simp] theorem setSel_admission (x : Sel) (s : State) : (setSel x s).admission = s.admission := rfl
@[simp] theorem setSel_table (x : Sel) (s : State) : (setSel x s).table = s.table := rfl
@[simp] theorem setSel_gauge (x : Sel) (s : State) : (setSel x s).gauge = s.gauge := rfl
@[simp] theorem setSel_capture (x : Sel) (s : State) : (setSel x s).capture = s.capture := rfl
@[simp] theorem setSel_link (x : Sel) (s : State) : (setSel x s).link = { s.link with sel := x } := rfl
@[simp] theorem setSel_answers (x : Sel) (s : State) : (setSel x s).answers = s.answers := rfl
@[simp] theorem setSel_sentDown (x : Sel) (s : State) : (setSel x s).sentDown = s.sentDown := rfl
@[simp] theorem setSel_sdo (x : Sel) (s : State) : (setSel x s).sdo = s.sdo := rfl
@[simp] theorem setSel_freePicks (x : Sel) (s : State) : (setSel x s).freePicks = s.freePicks := rfl
@[simp] theorem setSel_pending (x : Sel) (s : State) : (setSel x s).pending = s.pending := rfl

end Sys2Proof.Machine
end

