-- ==== Sys2Proof/Laws/Ops.lean ====
section
/-! SUPPORT. One lemma per shared operation: what it can do to the vectors, the class records, the table, the capture unit and the waits. -/

namespace Sys2Proof.Machine

/-! ### Vectors -/

@[simp] theorem updAt_get {α : Type} {n : Nat} (v : Vector α n) (i j : Fin n) (f : α → α) :
    (updAt v i f)[j] = if j = i then f v[i] else v[j] := by
  simp only [updAt, Fin.getElem_fin, Vector.getElem_set, Fin.ext_iff]
  split <;> split <;> first | rfl | omega

@[simp] theorem mapAll_get {α β : Type} {n : Nat} (f : Fin n → α → β) (v : Vector α n) (i : Fin n) :
    (mapAll f v)[i] = f i v[i] := by
  simp [mapAll]

@[simp] theorem vector_set_get {α : Type} {n : Nat} (v : Vector α n) (i j : Fin n) (x : α) :
    (v.set i x i.isLt)[j] = if j = i then x else v[j] := by
  simp only [Fin.getElem_fin, Vector.getElem_set, Fin.ext_iff]
  split <;> split <;> first | rfl | omega

theorem toList_eq_map_finRange {α : Type} {n : Nat} (v : Vector α n) :
    v.toList = (List.finRange n).map (fun i => v[i]) := by
  apply List.ext_getElem <;> simp

theorem mem_toList_iff {α : Type} {n : Nat} (v : Vector α n) (x : α) :
    x ∈ v.toList ↔ ∃ i : Fin n, v[i] = x := by
  simp [toList_eq_map_finRange]

/-! ### Class records -/

@[simp] theorem updCls_cls (c d : ClassId) (f : ClassRec → ClassRec) (s : State) :
    (updCls c f s).cls d = if d = c then f (s.cls c) else s.cls d := by
  simp only [State.cls, updCls, updAt_get]

@[simp] theorem updAllCls_cls (d : ClassId) (f : ClassId → ClassRec → ClassRec) (s : State) :
    (updAllCls f s).cls d = f d (s.cls d) := by
  simp only [State.cls, updAllCls, mapAll_get]

@[simp] theorem notice_cls (d : ClassId) (s : State) : (notice s).cls d = s.cls d := rfl
@[simp] theorem startEval_cls (d : ClassId) (s : State) : (startEval s).cls d = s.cls d := rfl
@[simp] theorem setPointer_cls (l : Fin 4) (c d : ClassId) (s : State) :
    (setPointer l c s).cls d = s.cls d := by
  simp [State.cls]

@[simp] theorem setReason_cls (c d : ClassId) (s : State) :
    (setReason c s).cls d = if d = c then { s.cls c with reason := s.headReason c } else s.cls d := by
  simp only [setReason, updCls_cls]

@[simp] theorem setReasons_cls (d : ClassId) (s : State) :
    (setReasons s).cls d = { s.cls d with
      reason := if (s.cls d).queue = [] then (s.cls d).reason else s.headReason d } := by
  simp only [setReasons, updAllCls_cls, List.isEmpty_iff]
  split <;> rfl

@[simp] theorem updOutstanding_cls (t : Traffic) (f : Nat → Nat) (d : ClassId) (s : State) :
    (updOutstanding t f s).cls d =
      if t = .cls d then { s.cls d with outstanding := f (s.cls d).outstanding } else s.cls d := by
  cases t with
  | pass => simp [updOutstanding]
  | cls c =>
    simp only [updOutstanding, updCls_cls, Traffic.cls.injEq]
    by_cases h : d = c
    · subst h; simp
    · simp [h, Ne.symm h]

@[simp] theorem outstandingFall_cls (t : Traffic) (d : ClassId) (s : State) :
    (outstandingFall t s).cls d =
      if t = .cls d then { s.cls d with outstanding := (s.cls d).outstanding - 1 } else s.cls d := by
  cases t with
  | pass => simp [outstandingFall]
  | cls c => simp only [outstandingFall, notice_cls, startEval_cls, updOutstanding_cls]

@[simp] theorem entryFreed_cls (d : ClassId) (s : State) : (entryFreed s).cls d = s.cls d := rfl

@[simp] theorem charge_cls (c d : ClassId) (p : Payment) (n : Nat) (s : State) :
    (charge c p n s).cls d =
      if d = c ∧ p = .credit then { s.cls d with credit := (s.cls d).credit - n } else s.cls d := by
  cases p with
  | free => simp [charge]
  | credit =>
    by_cases h : d = c
    · subst h; simp [charge]
    · simp [charge, h]
  | pool => simp [charge, State.cls]

@[simp] theorem charge_poolLevel (c : ClassId) (p : Payment) (n : Nat) (s : State) :
    (charge c p n s).admission.poolLevel =
      if p = .pool then s.admission.poolLevel - n else s.admission.poolLevel := by
  cases p <;> simp [charge]

/-- An update that keeps the class vector keeps every class record. -/
theorem cls_congr {s t : State} (h : t.admission.classes = s.admission.classes) (c : ClassId) :
    t.cls c = s.cls c := by
  simp only [State.cls, h]

/-- Two states with the same class records have the same class vector. -/
theorem classes_ext {s t : State} (h : ∀ c : ClassId, t.cls c = s.cls c) :
    t.admission.classes = s.admission.classes := by
  apply Vector.ext
  intro i hi
  exact h ⟨i, hi⟩

/-! ### Flags -/

theorem raiseAll_nil (s : State) : raiseAll [] s = s := rfl
theorem raiseAll_cons (f : Flag) (fs : List Flag) (s : State) :
    raiseAll (f :: fs) s = raiseAll fs (raise f s) := rfl
theorem raiseAll_append (fs gs : List Flag) (s : State) :
    raiseAll (fs ++ gs) s = raiseAll gs (raiseAll fs s) := by
  simp [raiseAll, List.foldl_append]

/-- The control block after raises depends on the control block alone. -/
theorem raise_control_congr {s t : State} (f : Flag) (h : t.control = s.control) :
    (raise f t).control = (raise f s).control := by
  simp [raise, h]

theorem raiseAll_control_congr {s t : State} (fs : List Flag) (h : t.control = s.control) :
    (raiseAll fs t).control = (raiseAll fs s).control := by
  induction fs generalizing s t with
  | nil => exact h
  | cons f fs ih => exact ih (raise_control_congr f h)

theorem raiseIf_control_congr {s t : State} (b : Bool) (f : Flag) (h : t.control = s.control) :
    (raiseIf b f t).control = (raiseIf b f s).control := by
  cases b
  · exact h
  · exact raise_control_congr f h

/-- The order of two raises does not matter. -/
theorem raise_comm (f g : Flag) (s : State) : raise f (raise g s) = raise g (raise f s) := by
  simp only [raise, BitVec.or_assoc, BitVec.or_comm f.bits0, BitVec.or_comm f.bits1]

/-! ### Capture -/

/-- The kind of a record that a block of the memory path offers is not MARK. -/
theorem ringAdd_state (c : Capture) (r : Rec) : (c.ringAdd r).state = c.state := by
  unfold Capture.ringAdd; split <;> (try split) <;> rfl

theorem ringAdd_settings (c : Capture) (r : Rec) : (c.ringAdd r).settings = c.settings := by
  unfold Capture.ringAdd; split <;> (try split) <;> rfl

/-- An offered record leaves ARMED armed, and moves TRIGGERED to DONE or not at all. -/
theorem offer_state (c : Capture) (r : Rec) :
    (c.offer r).state = c.state ∨ (c.state = .triggered ∧ (c.offer r).state = .done) := by
  unfold Capture.offer
  split <;> rename_i h
  · split
    · exact .inl (ringAdd_state c r)
    · exact .inl rfl
  · split
    · simp only [Capture.postAdd]
      split
      · exact .inr ⟨h, rfl⟩
      · exact .inl rfl
    · exact .inl rfl
  · exact .inl rfl
  · exact .inl rfl

theorem offer_settings (c : Capture) (r : Rec) : (c.offer r).settings = c.settings := by
  unfold Capture.offer
  split
  · split
    · exact ringAdd_settings c r
    · rfl
  · split <;> rfl
  · rfl
  · rfl

/-- The flags of an offered record are those of the change of the capture state. -/
theorem offerRecord_control (k : RecKind) (b : RecBody) (s : State) :
    (offerRecord k b s).control = (raiseAll (captureFlags s.capture (offerRecord k b s).capture) s).control := by
  rw [offerRecord_capture]
  unfold offerRecord
  generalize hr : ({ kind := k, stamp := s.control.time, body := b } : Rec) = r
  rcases offer_state s.capture r with h | ⟨h1, h2⟩
  · have : captureFlags s.capture (s.capture.offer r) = [] := by
      unfold captureFlags
      cases hs : s.capture.state <;> simp [h, hs]
    rw [this]
    cases hs : s.capture.state <;> simp [h, hs, raiseIf, raiseAll]
  · have : captureFlags s.capture (s.capture.offer r) = [.captureDone] := by
      simp [captureFlags, h1, h2]
    rw [this]
    simp [h1, h2, raiseIf, raiseAll, raise]

/-- The flags of an offered trigger source are those of the change of the capture state. -/
theorem offerTrigger_control (x : TrigSource) (b : RecBody) (s : State) :
    (offerTrigger x b s).control =
      (raiseAll (captureFlags s.capture (offerTrigger x b s).capture) s).control := by
  unfold offerTrigger
  by_cases h : s.capture.takes x = true
  · have h1 : s.capture.state = .armed := by
      simp only [Capture.takes, Bool.and_eq_true, beq_iff_eq] at h; exact h.1
    simp [h, Capture.trigger, Capture.markAt, captureFlags, h1, raiseIf, raiseAll, raise]
  · simp only [Bool.not_eq_true] at h
    have : captureFlags s.capture (s.capture.trigger x s.control.time b) = [] := by
      simp only [Capture.trigger, h]
      cases hs : s.capture.state <;> simp [captureFlags, hs]
    simp [h, raiseIf, this, raiseAll]

/-- A record and then a trigger source of one event: the flags are those of the whole change. -/
theorem captureFlags_trans (c : Capture) (r : Rec) (x : TrigSource) (now : Stamp) (b : RecBody) :
    captureFlags c (c.offer r) ++ captureFlags (c.offer r) ((c.offer r).trigger x now b) =
      captureFlags c ((c.offer r).trigger x now b) := by
  rcases offer_state c r with h | ⟨h1, h2⟩
  · cases hs : c.state <;>
      simp [captureFlags, h, hs, Capture.trigger, Capture.takes, Capture.markAt]
  · simp [captureFlags, h1, h2, Capture.trigger, Capture.takes]

/-! ### Waits -/

/-- The end of an event changes nothing when no masked flag has been raised during a wait. -/
theorem settle_of_waitOk {s : State} (h : s.waitOk) : settle s = s := by
  unfold settle
  unfold State.waitOk at h
  split <;> simp_all

/-- waitOk looks at the link and the flags alone. -/
theorem waitOk_congr {s t : State} (hl : t.link = s.link) (hc : t.control.flags0 = s.control.flags0)
    (hd : t.control.flags1 = s.control.flags1) (h : s.waitOk) : t.waitOk := by
  simp only [State.waitOk, maskedFlagSet, hl, hc, hd] at h ⊢
  exact h

/-! ### Admission -/

/-- No test of R84 fails exactly when the admission conditions hold. -/
theorem blockReason_none_iff (s : State) (c : ClassId) (n : Nat) :
    s.blockReason c n = .none ↔ s.admissible c n := by
  unfold State.blockReason State.admissible
  cases hm : (s.cls c).active.mode
  · by_cases hr : s.table.passReserve < s.freeEntries <;>
    by_cases hcr : (s.cls c).credit < 1 <;>
    cases hb : (s.cls c).active.borrow <;>
    by_cases hp : s.admission.poolLevel < n <;>
    by_cases hl : (s.cls c).active.limit.toNat ≤ (s.cls c).outstanding <;>
    simp [*] <;> omega
  · by_cases hr : s.table.passReserve < s.freeEntries <;> simp [*]

theorem entryWaitEmpty_iff (s : State) :
    s.entryWaitEmpty = true ↔ ∀ d : ClassId, (s.cls d).reason ≠ .entry := by
  simp only [State.entryWaitEmpty, List.all_eq_true, mem_toList_iff, bne_iff_ne]
  constructor
  · intro h d; exact h _ ⟨d, rfl⟩
  · rintro h _ ⟨d, rfl⟩; exact h d

theorem directOk_iff (s : State) (c : ClassId) (r : Req) :
    s.directOk c r = true ↔ (s.cls c).queue = [] ∧ (∀ d : ClassId, (s.cls d).reason ≠ .entry) ∧
      s.admissible c r.len.val := by
  simp only [State.directOk, Bool.and_eq_true, List.isEmpty_iff, entryWaitEmpty_iff, beq_iff_eq,
    blockReason_none_iff, and_assoc]

theorem holdRoom_iff (s : State) (c : ClassId) :
    s.holdRoom c = true ↔ s.heldTotal < 128 ∧ (s.cls c).queue.length < (s.cls c).active.quota.toNat := by
  have h : Config.holdSlots = 128 := rfl
  simp only [State.holdRoom, State.freeSlots, h, decide_eq_true_eq]
  omega

theorem payment_pool_iff (s : State) (c : ClassId) :
    s.payment c = .pool ↔ s.borrows c = true := by
  simp only [State.payment, State.borrows, decide_eq_true_eq]
  cases (s.cls c).active.mode <;> simp

theorem payment_credit_iff (s : State) (c : ClassId) :
    s.payment c = .credit ↔ (s.cls c).active.mode = .regulated ∧ 1 ≤ (s.cls c).credit := by
  simp only [State.payment]
  cases (s.cls c).active.mode <;> simp

/-- With a FREE entry there is a lowest one, and it is FREE. -/
theorem lowestFree_some_of_free {s : State} (h : 0 < s.freeEntries) :
    ∃ i : EntryId, s.lowestFree = some i ∧ (s.table.entries[i]).isFree = true := by
  unfold State.freeEntries at h
  rw [List.countP_pos_iff] at h
  obtain ⟨e, he, hf⟩ := h
  rw [mem_toList_iff] at he
  obtain ⟨j, rfl⟩ := he
  cases hl : s.lowestFree with
  | none =>
    unfold State.lowestFree at hl
    rw [List.find?_eq_none] at hl
    exact absurd hf (by simpa using hl j (List.mem_finRange j))
  | some i =>
    refine ⟨i, rfl, ?_⟩
    unfold State.lowestFree at hl
    have := List.find?_some hl
    simpa using this

theorem lowestFree_congr {s t : State} (h : t.table.entries = s.table.entries) :
    t.lowestFree = s.lowestFree := by
  simp only [State.lowestFree, h]

theorem freeEntries_congr {s t : State} (h : t.table.entries = s.table.entries) :
    t.freeEntries = s.freeEntries := by
  simp only [State.freeEntries, h]

/-- Admission into the table, with a FREE entry (R21). -/
theorem enterTable_of_free {s : State} {i : EntryId} (r : Req) (b : Bool) (h : s.lowestFree = some i) :
    enterTable r b s = updOutstanding r.traffic (fun n => n + 1)
      { s with table := { s.table with entries := s.table.entries.set i (.queued r b) i.isLt,
                                       issueQ := s.table.issueQ ++ [i] } } := by
  simp [enterTable, h, setEntry]

end Sys2Proof.Machine
end

