-- ==== Sys2Proof/Laws/Admission.lean ====
section
/-! SUPPORT. What an admission does: the class records, the table, the gauge block, the record and the flags of admitClass and admitPass. -/

namespace Sys2Proof.Machine

/-! ### Updates that leave the admission unit alone leave every class record alone -/

@[simp] theorem raise_cls (f : Flag) (d : ClassId) (s : State) : (raise f s).cls d = s.cls d := rfl
@[simp] theorem raiseIf_cls (b : Bool) (f : Flag) (d : ClassId) (s : State) :
    (raiseIf b f s).cls d = s.cls d := by cases b <;> rfl
@[simp] theorem offerRecord_cls (k : RecKind) (b : RecBody) (d : ClassId) (s : State) :
    (offerRecord k b s).cls d = s.cls d := cls_congr (by simp) d
@[simp] theorem offerTrigger_cls (x : TrigSource) (b : RecBody) (d : ClassId) (s : State) :
    (offerTrigger x b s).cls d = s.cls d := cls_congr (by simp) d
@[simp] theorem gaugeAdmission_cls (t : Traffic) (k : ReqKind) (n : Nat) (d : ClassId) (s : State) :
    (gaugeAdmission t k n s).cls d = s.cls d := rfl
@[simp] theorem gaugeBounce_cls (t : Traffic) (d : ClassId) (s : State) :
    (gaugeBounce t s).cls d = s.cls d := rfl
@[simp] theorem tally_cls (c : ClassId) (f : Tallies → Tallies) (d : ClassId) (s : State) :
    (tally c f s).cls d = s.cls d := rfl
@[simp] theorem tallyOf_cls (t : Traffic) (f : Tallies → Tallies) (d : ClassId) (s : State) :
    (tallyOf t f s).cls d = s.cls d := by cases t <;> rfl
@[simp] theorem setIntake_cls (i : IntakeReg) (d : ClassId) (s : State) :
    (setIntake i s).cls d = s.cls d := rfl
@[simp] theorem setEntry_cls (i : EntryId) (e : Entry) (d : ClassId) (s : State) :
    (setEntry i e s).cls d = s.cls d := rfl
@[simp] theorem leaveIssueQ_cls (i : EntryId) (d : ClassId) (s : State) :
    (leaveIssueQ i s).cls d = s.cls d := rfl
@[simp] theorem emit_cls (a b : Byte) (st : AnswerStatus) (l : List Byte) (d : ClassId) (s : State) :
    (emit a b st l s).cls d = s.cls d := rfl
@[simp] theorem settle_cls (d : ClassId) (s : State) : (settle s).cls d = s.cls d := cls_congr (by simp) d

@[simp] theorem raceAdmission_cls (c : ClassId) (n : Nat) (d : ClassId) (s : State) :
    (raceAdmission c n s).cls d = if d = c then (s.cls c).addRace n else s.cls d := by
  simp only [raceAdmission, raiseIf_cls, updCls_cls]

/-! ### The race counters (R99, R100) -/

/-- addRace touches the quiet state and the race counters alone. -/
theorem addRace_eq (k : ClassRec) (n : Nat) :
    k.addRace n = { k with quiet := (k.addRace n).quiet, raceTime := (k.addRace n).raceTime,
                           raceBytes := (k.addRace n).raceBytes } := by
  unfold ClassRec.addRace
  split
  · split <;> rfl
  · rfl

@[simp] theorem addRace_active (k : ClassRec) (n : Nat) : (k.addRace n).active = k.active := by
  rw [addRace_eq]
@[simp] theorem addRace_shadow (k : ClassRec) (n : Nat) : (k.addRace n).shadow = k.shadow := by
  rw [addRace_eq]
@[simp] theorem addRace_credit (k : ClassRec) (n : Nat) : (k.addRace n).credit = k.credit := by
  rw [addRace_eq]
@[simp] theorem addRace_outstanding (k : ClassRec) (n : Nat) :
    (k.addRace n).outstanding = k.outstanding := by
  rw [addRace_eq]
@[simp] theorem addRace_queue (k : ClassRec) (n : Nat) : (k.addRace n).queue = k.queue := by
  rw [addRace_eq]
@[simp] theorem addRace_reason (k : ClassRec) (n : Nat) : (k.addRace n).reason = k.reason := by
  rw [addRace_eq]

/-- What addRace does depends on the race settings and counters alone. -/
theorem addRace_congr {k q : ClassRec} (n : Nat) (h : k.active = q.active)
    (hq : (k.quiet, k.raceTime, k.raceBytes) = (q.quiet, q.raceTime, q.raceBytes)) :
    ((k.addRace n).quiet, (k.addRace n).raceTime, (k.addRace n).raceBytes) =
      ((q.addRace n).quiet, (q.addRace n).raceTime, (q.addRace n).raceBytes) := by
  simp only [Prod.mk.injEq] at hq
  unfold ClassRec.addRace
  rw [h, hq.2.2]
  split
  · split <;> simp [hq.1, hq.2.1]
  · simp [hq.1, hq.2.1, hq.2.2]

/-- The quiet state after an admission depends on the settings, the quiet state and the race bytes. -/
theorem addRace_quiet_congr {k q : ClassRec} (n : Nat) (h : k.active = q.active) (hq : k.quiet = q.quiet)
    (hb : k.raceBytes = q.raceBytes) : (k.addRace n).quiet = (q.addRace n).quiet := by
  unfold ClassRec.addRace
  rw [h, hb]
  split
  · split
    · rfl
    · exact hq
  · exact hq

/-! ### Class admission (R69) -/

/-- Two admission units with the same fields are the same. -/
theorem admission_eq {a b : Admission} (h1 : a.classes = b.classes) (h2 : a.refillPeriod = b.refillPeriod)
    (h3 : a.refillStart = b.refillStart) (h4 : a.poolLevel = b.poolLevel) (h5 : a.poolCap = b.poolCap)
    (h6 : a.pointers = b.pointers) (h7 : a.evalRunning = b.evalRunning)
    (h8 : a.retryNotices = b.retryNotices) : a = b := by
  cases a; cases b; simp_all

/-- The class records after an admission, whatever the table does. -/
theorem admitClass_cls (c : ClassId) (r : Req) (s : State) (d : ClassId) :
    (admitClass c r s).cls d = if d = c
      then ((charge c (s.payment c) r.len.val (enterTable r (s.payment c == .pool) s)).cls c).addRace r.len.val
      else (enterTable r (s.payment c == .pool) s).cls d := by
  simp only [admitClass, offerRecord_cls, raceAdmission_cls, gaugeAdmission_cls, tally_cls]
  by_cases h : d = c
  · subst h; simp
  · simp [h]

/-- The class records after admission into a table with an entry FREE. -/
theorem enterTable_cls {s : State} {i : EntryId} (r : Req) (b : Bool) (h : s.lowestFree = some i)
    (d : ClassId) : (enterTable r b s).cls d =
      if r.traffic = .cls d then { s.cls d with outstanding := (s.cls d).outstanding + 1 } else s.cls d := by
  rw [enterTable_of_free r b h, updOutstanding_cls]
  rfl

/-- The class record of the class of an admission. -/
theorem admitClass_cls_self {s : State} {i : EntryId} {c : ClassId} {r : Req} (ht : r.traffic = .cls c)
    (h : s.lowestFree = some i) : (admitClass c r s).cls c =
      ({ s.cls c with
          outstanding := (s.cls c).outstanding + 1,
          credit := if (s.cls c).active.mode = .regulated ∧ 1 ≤ (s.cls c).credit
            then (s.cls c).credit - r.len.val else (s.cls c).credit } : ClassRec).addRace r.len.val := by
  rw [admitClass_cls, if_pos rfl, charge_cls, enterTable_cls r _ h, if_pos ht]
  congr 1
  by_cases hp : s.payment c = .credit
  · simp only [hp, true_and, if_true, (payment_credit_iff s c).mp hp]
  · have := mt (payment_credit_iff s c).mpr hp
    simp [hp, this]

/-- Every other class record is untouched. -/
theorem admitClass_cls_other {s : State} {i : EntryId} {c d : ClassId} {r : Req}
    (ht : r.traffic = .cls c) (h : s.lowestFree = some i) (hd : d ≠ c) :
    (admitClass c r s).cls d = s.cls d := by
  rw [admitClass_cls, if_neg hd, enterTable_cls r _ h, if_neg (by rw [ht]; simpa using Ne.symm hd)]

/-- What a class admission does in a state with an entry FREE. -/
theorem admitClass_spec {s : State} {c : ClassId} {r : Req} (ht : r.traffic = .cls c)
    (hf : 0 < s.freeEntries) :
    classAdmitted c r s (admitClass c r s) ∧
      (∀ d : ClassId, d ≠ c → (admitClass c r s).cls d = s.cls d) ∧
      ((admitClass c r s).cls c).queue = (s.cls c).queue ∧
      ((admitClass c r s).cls c).reason = (s.cls c).reason ∧
      (admitClass c r s).admission = { s.admission with
        classes := (admitClass c r s).admission.classes,
        poolLevel := (admitClass c r s).admission.poolLevel } ∧
      unchangedBut [.control, .admission, .table, .gauge, .capture] s (admitClass c r s) := by
  obtain ⟨i, hi, -⟩ := lowestFree_some_of_free hf
  have hb : (s.payment c == .pool) = s.borrows c := by
    rw [Bool.eq_iff_iff, beq_iff_eq, payment_pool_iff]
  have hself := admitClass_cls_self ht hi
  refine ⟨⟨⟨i, hi, ?_⟩, ?_, ?_, ?_, ?_, ?_, ?_, ?_, ?_⟩, fun d hd => admitClass_cls_other ht hi hd, ?_, ?_, ?_, ?_⟩
  · rw [← hb]
    simp [admitClass, enterTable_of_free _ _ hi]
  · rw [hself]; simp
  · rw [hself]; simp
  · rw [← hb]
    simp [admitClass, enterTable_of_free _ _ hi]
  · rw [← hb]
    simp [admitClass, gaugeAdmission, tally, updGauge, enterTable_of_free _ _ hi]
  · rw [hself]
    exact addRace_congr _ rfl rfl
  · have hcr : ((charge c (s.payment c) r.len.val (enterTable r (s.payment c == .pool) s)).cls c).credit =
        ((admitClass c r s).cls c).credit := by
      rw [admitClass_cls, if_pos rfl, addRace_credit]
    rw [← hb, ← hcr]
    simp [admitClass]
  · have hquiet : ((admitClass c r s).cls c).quiet = ((s.cls c).addRace r.len.val).quiet := by
      rw [hself]
      apply addRace_quiet_congr <;> rfl
    unfold raised
    rw [hquiet, raiseAll_append]
    unfold admitClass
    rw [offerRecord_control]
    simp only [raceAdmission_capture, gaugeAdmission_capture, tally_capture, charge_capture,
      enterTable_capture]
    refine raiseAll_control_congr _ ?_
    unfold raceAdmission
    refine (raiseIf_control_congr (s := s) _ _ (by simp)).trans ?_
    have hq : ∀ n, (((gaugeAdmission r.traffic r.kind r.len.val (tally c (Tallies.onAdmission r.kind r.len.val
        (s.payment c == .pool)) (charge c (s.payment c) r.len.val
          (enterTable r (s.payment c == .pool) s)))).cls c).quiet = (s.cls c).quiet) ∧
        ((((gaugeAdmission r.traffic r.kind r.len.val (tally c (Tallies.onAdmission r.kind r.len.val
        (s.payment c == .pool)) (charge c (s.payment c) r.len.val
          (enterTable r (s.payment c == .pool) s)))).cls c).addRace n).quiet =
            ((s.cls c).addRace n).quiet) := by
      intro n
      have h0 := enterTable_cls r (s.payment c == .pool) hi c
      rw [if_pos ht] at h0
      simp only [gaugeAdmission_cls, tally_cls, charge_cls, h0]
      split
      · exact ⟨rfl, by apply addRace_quiet_congr <;> rfl⟩
      · exact ⟨rfl, by apply addRace_quiet_congr <;> rfl⟩
    rw [(hq 0).1, (hq r.len.val).2]
    by_cases h1 : (s.cls c).quiet = .quiet ∧ ((s.cls c).addRace r.len.val).quiet = .active
    · rw [if_pos h1, h1.1, h1.2]; rfl
    · rw [if_neg h1]
      have : ((s.cls c).quiet == .quiet && ((s.cls c).addRace r.len.val).quiet == .active) = false := by
        simpa using h1
      rw [this]; rfl
  · rw [hself]; simp
  · rw [hself]; simp
  · rw [hself]; simp
  · apply admission_eq <;> simp [admitClass]
  · intro p hp
    cases p <;> first | exact absurd (by decide) hp | simp [Part.same, admitClass, enterTable_of_free _ _ hi]

end Sys2Proof.Machine
end

