-- ==== Sys2Proof/Laws/Encoding.lean ====
section
/-! SUPPORT. Bytes and fields: elements and 16-bit fields come back from their bytes, and a field reads what was put at its place. -/

namespace Sys2Proof.Machine

@[simp] theorem wordBytes_length (v : Word) : (wordBytes v).length = 4 := rfl
@[simp] theorem halfBytes_length (v : BitVec 16) : (halfBytes v).length = 2 := rfl

/-- An element comes back from its four bytes (R161). -/
theorem bytesWord_wordBytes (v : Word) :
    bytesWord (field v 0 8) (field v 8 8) (field v 16 8) (field v 24 8) = v := by
  apply BitVec.eq_of_getLsbD_eq
  intro i hi
  simp only [bytesWord, field, BitVec.getLsbD_append, BitVec.getLsbD_extractLsb']
  by_cases h1 : i < 8
  · simp [h1]
  · by_cases h2 : i < 16
    · simp [h1, show i - 8 < 8 by omega, show 8 + (i - 8) = i by omega]
    · by_cases h3 : i < 24
      · simp [h1, show ¬ i - 8 < 8 by omega, show i - 8 - 8 < 8 by omega,
          show 16 + (i - 8 - 8) = i by omega]
      · simp [h1, show ¬ i - 8 < 8 by omega, show ¬ i - 8 - 8 < 8 by omega,
          show i - 8 - 8 - 8 < 8 by omega, show 24 + (i - 8 - 8 - 8) = i by omega]

/-- A 16-bit field comes back from its two bytes (R161). -/
theorem bytesHalf_halfBytes (v : BitVec 16) : bytesHalf (v.extractLsb' 0 8) (v.extractLsb' 8 8) = v := by
  apply BitVec.eq_of_getLsbD_eq
  intro i hi
  simp only [bytesHalf, BitVec.getLsbD_append, BitVec.getLsbD_extractLsb']
  by_cases h1 : i < 8
  · simp [h1]
  · simp [h1, show i - 8 < 8 by omega, show 8 + (i - 8) = i by omega]

/-- Write data comes back from its bytes, whatever follows (R171). -/
theorem takeWords_flatMap (ws : List Word) (more : List Byte) :
    takeWords ws.length (ws.flatMap wordBytes ++ more) = (ws, more) := by
  induction ws with
  | nil => cases more <;> rfl
  | cons w ws ih =>
    show takeWords (ws.length + 1) (field w 0 8 :: field w 8 8 :: field w 16 8 :: field w 24 8 ::
      (ws.flatMap wordBytes ++ more)) = _
    rw [takeWords, ih, bytesWord_wordBytes]

/-- Fewer bytes than the count asks for give fewer elements (R171). -/
theorem takeWords_length_le (n : Nat) (bytes : List Byte) : (takeWords n bytes).1.length ≤ n := by
  induction n generalizing bytes with
  | zero => simp [takeWords]
  | succ n ih =>
    unfold takeWords
    split
    · rename_i heq
      cases heq
      simp only [List.length_cons]
      have := ih ‹_›
      omega
    · simp

/-- The value of a part of an element at a place. -/
theorem put_toNat {lo w v : Nat} (h : lo + w ≤ 32) : (put lo w v).toNat = v % 2 ^ w * 2 ^ lo := by
  have h1 : v % 2 ^ w < 2 ^ w := Nat.mod_lt _ (Nat.two_pow_pos w)
  have h2 : v % 2 ^ w * 2 ^ lo < 2 ^ 32 := by
    calc v % 2 ^ w * 2 ^ lo < 2 ^ w * 2 ^ lo := Nat.mul_lt_mul_of_pos_right h1 (Nat.two_pow_pos lo)
      _ = 2 ^ (w + lo) := (Nat.pow_add 2 w lo).symm
      _ ≤ 2 ^ 32 := Nat.pow_le_pow_right (by omega) (by omega)
  simp only [put, BitVec.toNat_ofNat]
  exact Nat.mod_eq_of_lt h2

end Sys2Proof.Machine
end

