-- ==== Sys2Proof/Laws/Expiry.lean ====
section
/-! SUPPORT. What a PASS admission, an expiry and the end of an event do, each said once. -/

namespace Sys2Proof.Machine

/-! ### The end of an event -/

/-- settle touches nothing but the link. -/
theorem settle_frame (s : State) : unchangedBut [.link] s (settle s) := by
  intro p hp
  cases p <;> first | exact absurd (by decide) hp | simp [Part.same]

/-- settle differs from its state by the link. -/
theorem settle_eq (s : State) : settle s = { s with link := (settle s).link } := by
  have h := settle_frame s
  have h1 : (settle s).control = s.control := h .control (by decide)
  have h2 : (settle s).intake = s.intake := h .intake (by decide)
  have h3 : (settle s).classifier = s.classifier := h .classifier (by decide)
  have h4 : (settle s).admission = s.admission := h .admission (by decide)
  have h5 : (settle s).table = s.table := h .table (by decide)
  have h6 : (settle s).gauge = s.gauge := h .gauge (by decide)
  have h7 : (settle s).capture = s.capture := h .capture (by decide)
  have h8 : (settle s).answers = s.answers := h .answers (by decide)
  have h9 : (settle s).sentDown = s.sentDown := h .sentDown (by decide)
  have h10 : (settle s).sdo = s.sdo := h .sdo (by decide)
  have h11 : (settle s).freePicks = s.freePicks := h .freePicks (by decide)
  have h12 : (settle s).pending = s.pending := h .pending (by decide)
  generalize settle s = t at *
  cases t; cases s; simp_all

/-! ### Flags of a record and of a trigger source after it -/

/-- A record is offered, after the flags `fs`. -/
theorem raised_offerRecord {fs : List Flag} {s u : State} (k : RecKind) (b : RecBody)
    (hc : u.control = (raiseAll fs s).control) (hk : u.capture = s.capture) :
    raised fs s (offerRecord k b u) := by
  unfold raised
  rw [raiseAll_append, offerRecord_control, hk]
  exact raiseAll_control_congr _ hc

/-- A record and then a trigger source are offered in one event, after the flags `fs`. -/
theorem raised_offerBoth {fs : List Flag} {s u : State} (k : RecKind) (b : RecBody) (x : TrigSource)
    (b' : RecBody) (hc : u.control = (raiseAll fs s).control) (hk : u.capture = s.capture) :
    raised fs s (offerTrigger x b' (offerRecord k b u)) := by
  unfold raised
  rw [raiseAll_append, offerTrigger_control, offerTrigger_capture, offerRecord_capture, hk,
    ← captureFlags_trans, raiseAll_append]
  refine raiseAll_control_congr _ ?_
  rw [offerRecord_control, offerRecord_capture, hk]
  exact raiseAll_control_congr _ hc

/-! ### Expiry (R11, R30, R33, R92) -/

/-- What an expiry does besides what it does to the place where the request stood. -/
theorem expireReq_spec (r : Req) (stood : ExpiredAt) (s : State) :
    expiredFrom stood [] r s (expireReq r stood s) ∧
      unchangedBut [.control, .gauge, .capture, .answers] s (expireReq r stood s) := by
  refine ⟨⟨?_, ?_, ?_, ?_⟩, ?_⟩
  · simp [expireReq]
  · unfold expireReq
    cases r.traffic <;> simp [tallyOf, tally]
  · simp [expireReq]
  · exact raised_offerBoth _ _ _ _ (by simp [raiseAll, raise]) (by simp)
  · intro p hp
    cases p <;> first | exact absurd (by decide) hp | simp [Part.same, expireReq]

@[simp] theorem expireReq_cls (r : Req) (stood : ExpiredAt) (d : ClassId) (s : State) :
    (expireReq r stood s).cls d = s.cls d := by simp [expireReq]
@[simp] theorem expireReq_table (r : Req) (stood : ExpiredAt) (s : State) :
    (expireReq r stood s).table = s.table := by simp [expireReq]
@[simp] theorem expireReq_admission (r : Req) (stood : ExpiredAt) (s : State) :
    (expireReq r stood s).admission = s.admission := by simp [expireReq]
@[simp] theorem expireReq_intake (r : Req) (stood : ExpiredAt) (s : State) :
    (expireReq r stood s).intake = s.intake := by simp [expireReq]

/-! ### PASS admission (R22) -/

/-- What a PASS admission does in a state with an entry FREE. -/
theorem admitPass_spec {s : State} {r : Req} (ht : r.traffic = .pass) (hf : 0 < s.freeEntries) :
    enteredTable r false s (admitPass r s) ∧
      (admitPass r s).gauge = { s.gauge with
        passAdmitted := s.gauge.passAdmitted + 1,
        gauges := mapAll (fun _ g => g.count .pass (g.settings.quantity.ofAdmission r.kind r.len.val))
          s.gauge.gauges } ∧
      (admitPass r s).capture = s.capture.offer
        { kind := .admitted 0 false, stamp := s.control.time, body := r.body } ∧
      raised [] s (admitPass r s) ∧
      unchangedBut [.control, .table, .gauge, .capture] s (admitPass r s) := by
  obtain ⟨i, hi, -⟩ := lowestFree_some_of_free hf
  have he := enterTable_of_free (s := s) r false hi
  rw [ht] at he
  refine ⟨⟨i, hi, ?_⟩, ?_, ?_, ?_, ?_⟩
  · simp [admitPass, he, updOutstanding]
  · simp [admitPass, he, updOutstanding, gaugeAdmission, updGauge]
  · simp [admitPass, he, updOutstanding]
  · exact raised_offerRecord _ _ (by simp [raiseAll]) (by simp)
  · intro p hp
    cases p <;> first | exact absurd (by decide) hp | simp [Part.same, admitPass, he, updOutstanding]

end Sys2Proof.Machine
end

