-- ==== Sys2Proof/Laws/Link.lean ====
section
/-! SUPPORT. The running frame: what goOn, advance and refuseFrame do, and what the run of a command comes to. -/

namespace Sys2Proof.Machine

/-! ### The frame goes on -/

/-- goOn touches nothing but the link. -/
theorem goOn_frame (s : State) : unchangedBut [.link] s (goOn s) := by
  intro p hp
  unfold goOn
  split
  · split <;> cases p <;> simp_all [Part.same, buildReply, updLink]
  all_goals cases p <;> simp_all [Part.same]

/-- With a wait under way, or outside EXECUTING, goOn does nothing. -/
theorem goOn_of_wait {s : State} (h : s.link.wait ≠ .none) : goOn s = s := by
  unfold goOn
  split <;> simp_all

/-- goOn in EXECUTING with no wait: the reply of a frame with nothing left, the frame otherwise. -/
theorem goOn_executing {s : State} {run : Run} (h : s.link.state = .executing run)
    (hw : s.link.wait = .none) :
    goOn s = if run.body = [] then
      buildReply { seq := run.seq, status := .ok, failIdx := 0, executed := run.nRun, data := run.data } s
    else s := by
  unfold goOn
  rw [h, hw]
  simp only [List.isEmpty_iff]

/-- The end of a running AWAIT, as the relation of Safety. -/
theorem endAwait_waitEnded {s : State} {run : Run} (n : Nat) (way : WaitWay)
    (h : s.link.state = .executing run) :
    waitEnded run n way s (endAwait n way s) ∧ unchangedBut [.link] s (endAwait n way s) := by
  unfold endAwait waitEnded
  have h1 : (updLink (fun l => { l with wait := .none, awaitTime := n, awaitWay := way }) s).link.state =
      .executing run := h
  rw [goOn_executing h1 rfl]
  by_cases hb : run.body = []
  · simp only [hb, if_true]
    refine ⟨rfl, fun p hp => ?_⟩
    cases p <;> first | rfl | exact absurd hp (by decide)
  · simp only [hb, if_false]
    refine ⟨rfl, fun p hp => ?_⟩
    cases p <;> first | rfl | exact absurd hp (by decide)

/-- A refused command: the relation of Safety. -/
theorem refuseFrame_spec (st : Status) (run : Run) (s : State) :
    frameRefused st run s (refuseFrame st run s) ∧ unchangedBut [.link] s (refuseFrame st run s) := by
  refine ⟨rfl, fun p hp => ?_⟩
  cases p <;> first | rfl | exact absurd hp (by decide)

/-- A command that ran: `s'` is the state its effect has left, which differs from `s` in the link by its wait
and its await items alone. -/
theorem advance_spec {k : Cmd} {run : Run} {data : List Byte} {s s' : State}
    (hcur : s'.link.cursors = s.link.cursors) (hst : s'.link.stored = s.link.stored)
    (hk : s'.link.kept = s.link.kept) :
    commandRan k run data s (advance k s.link.cursors[k.panel] run data s') ∧
      unchangedBut [.link] s' (advance k s.link.cursors[k.panel] run data s') ∧
      (advance k s.link.cursors[k.panel] run data s').link.sel = s'.link.sel ∧
      (advance k s.link.cursors[k.panel] run data s').link.counters = s'.link.counters ∧
      (advance k s.link.cursors[k.panel] run data s').link.wait = s'.link.wait ∧
      (advance k s.link.cursors[k.panel] run data s').link.awaitMask1 = s'.link.awaitMask1 ∧
      (advance k s.link.cursors[k.panel] run data s').link.awaitLimit = s'.link.awaitLimit ∧
      (advance k s.link.cursors[k.panel] run data s').link.awaitTime = s'.link.awaitTime ∧
      (advance k s.link.cursors[k.panel] run data s').link.awaitWay = s'.link.awaitWay := by
  unfold advance
  generalize hu : updLink (fun l => { l with
    state := .executing { run with body := k.rest, nRun := run.nRun + 1, data := run.data ++ data },
    cursors := l.cursors.set k.panel (k.endCursor s.link.cursors[k.panel]) k.panel.isLt }) s' = u
  have hus : u.link.state =
      .executing { run with body := k.rest, nRun := run.nRun + 1, data := run.data ++ data } := by
    rw [← hu]; rfl
  have huw : u.link.wait = s'.link.wait := by rw [← hu]; rfl
  have hframe : unchangedBut [.link] s' u := by
    rw [← hu]; intro p hp
    cases p <;> first | rfl | exact absurd hp (by decide)
  by_cases hw : s'.link.wait = .none
  · rw [goOn_executing hus (by rw [huw, hw])]
    by_cases hr : k.rest = []
    · simp only [hr, if_true]
      refine ⟨?_, ?_, ?_⟩
      · rw [← hu]
        simp [commandRan, buildReply, updLink, hcur, hr]
      · intro p hp
        have := hframe p hp
        cases p <;> first | exact this | exact absurd hp (by decide)
      · rw [← hu]; simp [buildReply, updLink, hw]
    · simp only [hr, if_false]
      refine ⟨?_, hframe, ?_⟩
      · rw [← hu]
        simp [commandRan, updLink, hcur, hr, hst, hk]
      · rw [← hu]; simp [updLink]
  · rw [goOn_of_wait (by rw [huw]; exact hw)]
    refine ⟨?_, hframe, ?_⟩
    · rw [← hu]
      simp [commandRan, updLink, hcur, hw, hst, hk]
    · rw [← hu]; simp [updLink]

/-! ### Transfers -/

/-- Everything the fall of SEL can come to (R161, R162): the level alone while RESET is held, nothing in an
ignored period, and the effect of the first byte otherwise. -/
theorem transferBegins_eq (f : State → State) (s : State) :
    transferBegins f s = .next (if s.control.resetHeld = true then setSel .low s
      else if s.link.sel = .ignored then s else f (setSel .low s)) := by
  unfold transferBegins
  cases s.link.sel <;> rfl

/-- Everything the rise of SEL can come to: the level alone while RESET is held, the end of an ignored period,
and the effect on the transfer otherwise. -/
theorem transferEnds_eq (z f : State → State) (s : State) :
    transferEnds z f s = .next (if s.control.resetHeld = true then setSel .high s
      else if s.link.sel = .ignored then setSel .high (z s) else f (setSel .high s)) := by
  unfold transferEnds
  cases s.link.sel <;> rfl

/-- A complete frame in RECEIVING, outside an ignored period, is acted on at its last byte (R163). -/
theorem frameArrived_complete {fromReady : Bool} {bytes : List Byte} {f : Frame} {s : State}
    (h : s.link.state = .receiving fromReady) (hf : parseFrame bytes = some f) :
    frameArrived bytes s = frameDone fromReady f (clockZeros bytes.length s) := by
  unfold frameArrived
  rw [h, hf]

/-- The three things a complete frame can be (R166, R167, R169). -/
theorem frameDone_cases (fromReady : Bool) (f : Frame) (s : State) :
    frameDone fromReady f s =
      if crc16 f.covered ≠ f.crc then checkFailFrame fromReady f s
      else if f.seq ≠ 0 ∧ ∃ k : Reply, s.link.kept = some k ∧ k.seq = f.seq then repeatedFrame s
      else runFrame fromReady f s := by
  unfold frameDone Link.isRepeat Frame.good
  cases hk : s.link.kept <;> simp

/-! ### The run of a row -/

/-- The row of the next command runs it. -/
theorem runRow_of_next {row : Row} {run : Run} {k : Cmd} {s : State} (h : NextCommand s run k)
    (hrow : k.isRow s.link.cursors[k.panel] row = true) : runRow row s = runCmd k run s := by
  unfold runRow
  rw [h.executing, h.noWait]
  simp only [h.parsed, hrow, if_true]

/-- Each row's command of the table runs the row while RESET is not held. -/
theorem exec_row {row : Row} {s : State} (h : s.control.resetHeld = false) :
    exec row.instr s = .next (runRow row s) := by
  cases row <;> exact congrArg Host.Outcome.next (if_neg (by simp [h]))

/-- What one element of a write comes to, and the frame after it. -/
def afterWrite (k : Cmd) (run : Run) (s : State) (panel : Fin 8) (pos : Nat) (w : Written) : State :=
  match w with
  | .done s' =>
    if thresholdsLeft panel [pos] s' = true then advance k s.link.cursors[k.panel] run [] s'
    else refuseFrame .invalid run s
  | .stateRefused => refuseFrame .state run s
  | .invalid none => refuseFrame .invalid run s
  | .invalid (some f) =>
    refuseFrame .invalid run { s with classifier := { s.classifier with fault := f } }

/-- The positions of a command of one element. -/
theorem positions_one {k : Cmd} {cur : BitVec 16} (hc : k.count = 1) (hw : (k.posFlag && k.pos.isNone) = false) :
    k.positions cur = [k.start cur] := by
  unfold Cmd.positions
  simp [hw, hc]

/-- A whole command announces no position that it lacks. -/
theorem parseCmd_pos {body : List Byte} {k : Cmd} (h : parseCmd body = some k) (hw : k.whole = true) :
    (k.posFlag && k.pos.isNone) = false := by
  rcases body with _ | ⟨h0, _ | ⟨h1, rest⟩⟩
  · cases h
  · cases h
  · simp only [parseCmd] at h
    by_cases hb : (bytesHalf h0 h1).getLsbD 14 = true
    · rcases rest with _ | ⟨p0, _ | ⟨p1, rest⟩⟩ <;> simp only [hb, if_true, Option.some.injEq] at h <;>
        subst h <;> simp_all [parseData]
    · simp only [hb, Bool.false_eq_true, if_false, Option.some.injEq] at h
      subst h; simp_all [parseData]

/-- A whole write of one element to a place that takes writes passes the first four checks, and belongs to
the row of its element. -/
theorem oneWrite_checks {k : Cmd} {cur : BitVec 16} {pos : Nat} (hw : k.write = true) (hh : k.whole = true)
    (hc : k.count = 1) (hpos : k.positions cur = [pos]) (hst : k.start cur = pos)
    (hp : pos < panelSize k.panel) :
    k.isRow cur (writeRow k.panel pos) = true ∧ k.parseFails cur = false ∧ k.rangeFails cur = false ∧
      k.accessFails cur = !writable k.panel pos ∧ ∀ run, k.fullFails run = false := by
  refine ⟨by simp [Cmd.isRow, hw, hpos], by simp [Cmd.parseFails, hh, hc], ?_, ?_, ?_⟩
  · simp only [Cmd.rangeFails, hst, hc]
    split <;> simp <;> omega
  · simp [Cmd.accessFails, hw, hpos]
  · intro run; simp [Cmd.fullFails, hw]

/-- The same of a read with room in the reply. -/
theorem oneRead_checks {k : Cmd} {cur : BitVec 16} {pos : Nat} {run : Run} (hw : k.write = false)
    (hh : k.whole = true) (hc : k.count = 1) (hpos : k.positions cur = [pos]) (hst : k.start cur = pos)
    (hp : pos < panelSize k.panel) (hroom : run.data.length + 4 ≤ 1024) :
    k.isRow cur (readRow k.panel pos) = true ∧ k.parseFails cur = false ∧ k.rangeFails cur = false ∧
      k.accessFails cur = writeOnly k.panel pos ∧ k.fullFails run = false := by
  refine ⟨by simp [Cmd.isRow, hw, hpos], by simp [Cmd.parseFails, hh, hc], ?_, ?_, ?_⟩
  · simp only [Cmd.rangeFails, hst, hc]
    split <;> simp <;> omega
  · simp [Cmd.accessFails, hw, hpos]
  · have hm : Config.maxReplyData = 1024 := rfl
    simp only [Cmd.fullFails, hw, hc, hm, Bool.not_false, Bool.true_and, decide_eq_false_iff_not]
    omega

/-- The one write of a frame's next command, at a position that takes writes. -/
theorem exec_nextWrite {s : State} {run : Run} {k : Cmd} {panel : Fin 8} {pos : Nat} {v : Word}
    (h : NextWrite s run k panel pos v) (hp : pos < panelSize panel) (ha : writable panel pos = true) :
    exec (writeRow panel pos).instr s = .next (afterWrite k run s panel pos (writeElem panel pos v s)) := by
  have hpan : k.panel = panel := h.onPanel
  subst hpan
  have hst := h.start
  have hpos := positions_one (cur := s.link.cursors[k.panel]) h.count (parseCmd_pos h.next.parsed h.whole)
  rw [hst] at hpos
  obtain ⟨h0, h1, h2, h3, h4⟩ := oneWrite_checks h.write h.whole h.count hpos hst hp
  rw [exec_row h.next.released, runRow_of_next h.next h0]
  rw [ha] at h3
  unfold runCmd Cmd.exec
  simp only [h1, h2, h3, h4, h.write, Bool.false_eq_true, Bool.not_true, if_false, if_true, Cmd.runWrite,
    hpos, h.words, List.zip_cons_cons, List.zip_nil_right, tryElements, List.foldl_cons, List.foldl_nil,
    Trial.element]
  unfold afterWrite
  cases writeElem k.panel pos v s with
  | done s' =>
    by_cases ht : thresholdsLeft k.panel [pos] s' = true <;> simp [ht]
  | stateRefused => simp
  | invalid f => cases f <;> simp

/-- A write of the frame's next command to a position that takes none is refused ACCESS. -/
theorem exec_nextWrite_access {s : State} {run : Run} {k : Cmd} {panel : Fin 8} {pos : Nat} {v : Word}
    (h : NextWrite s run k panel pos v) (hp : pos < panelSize panel) (ha : writable panel pos = false) :
    exec (writeRow panel pos).instr s = .next (refuseFrame .access run s) := by
  have hpan : k.panel = panel := h.onPanel
  subst hpan
  have hst := h.start
  have hpos := positions_one (cur := s.link.cursors[k.panel]) h.count (parseCmd_pos h.next.parsed h.whole)
  rw [hst] at hpos
  obtain ⟨h0, h1, h2, h3, -⟩ := oneWrite_checks h.write h.whole h.count hpos hst hp
  rw [exec_row h.next.released, runRow_of_next h.next h0]
  rw [ha] at h3
  unfold runCmd Cmd.exec
  simp only [h1, h2, h3, Bool.false_eq_true, Bool.not_false, if_false, if_true]

/-- The one read of a frame's next command, at a position that may be read. -/
theorem exec_nextRead {s : State} {run : Run} {k : Cmd} {panel : Fin 8} {pos : Nat}
    (h : NextRead s run k panel pos) (hp : pos < panelSize panel) (ha : writeOnly panel pos = false) :
    exec (readRow panel pos).instr s = .next (advance k s.link.cursors[k.panel] run
      (wordBytes (readOne panel pos s s).1) (readOne panel pos s s).2) := by
  have hpan : k.panel = panel := h.onPanel
  subst hpan
  have hst := h.start
  have hpos := positions_one (cur := s.link.cursors[k.panel]) h.count (parseCmd_pos h.next.parsed h.whole)
  rw [hst] at hpos
  obtain ⟨h0, h1, h2, h3, h4⟩ := oneRead_checks h.read h.whole h.count hpos hst hp h.room
  rw [exec_row h.next.released, runRow_of_next h.next h0]
  rw [ha] at h3
  unfold runCmd Cmd.exec
  simp only [h1, h2, h3, h4, h.read, Bool.false_eq_true, if_false, Cmd.runRead, hpos, readAll,
    List.flatMap_cons, List.flatMap_nil, List.append_nil]

/-- A write that is done and leaves the link alone: the frame goes on from the state it leaves. -/
theorem nextWrite_done {s : State} {run : Run} {k : Cmd} {panel : Fin 8} {pos : Nat} {v : Word}
    {c : Instr} (s' : State) (h : NextWrite s run k panel pos v) (hc : (writeRow panel pos).instr = c)
    (hp : pos < panelSize panel) (ha : writable panel pos = true) (hw : writeElem panel pos v s = .done s')
    (ht : thresholdsLeft panel [pos] s' = true) (hl : s'.link = s.link) :
    ∃ t, exec c s = .next t ∧ commandRan k run [] s t ∧ waitFrame s t ∧ unchangedBut [.link] s' t := by
  subst hc
  rw [exec_nextWrite h hp ha, hw]
  simp only [afterWrite, ht, if_true]
  obtain ⟨h1, h2, h0, h3, h4, h5, h6, h7, h8⟩ := advance_spec (k := k) (run := run) (data := [])
    (s := s) (s' := s') (by rw [hl]) (by rw [hl]) (by rw [hl])
  rw [hl] at h0 h3 h4 h5 h6 h7 h8
  exact ⟨_, rfl, h1, ⟨h0, h3, h4, h5, h6, h7, h8⟩, h2⟩

/-- A write whose value is refused: nothing but the reply. -/
theorem nextWrite_invalid {s : State} {run : Run} {k : Cmd} {panel : Fin 8} {pos : Nat} {v : Word}
    {c : Instr} (h : NextWrite s run k panel pos v) (hc : (writeRow panel pos).instr = c)
    (hp : pos < panelSize panel) (ha : writable panel pos = true)
    (hw : writeElem panel pos v s = .invalid none) :
    ∃ t, exec c s = .next t ∧ frameRefused .invalid run s t ∧ unchangedBut [.link] s t := by
  subst hc
  rw [exec_nextWrite h hp ha, hw]
  exact ⟨_, rfl, refuseFrame_spec .invalid run s⟩

/-- A write that the state of its block refuses: nothing but the reply. -/
theorem nextWrite_state {s : State} {run : Run} {k : Cmd} {panel : Fin 8} {pos : Nat} {v : Word}
    {c : Instr} (h : NextWrite s run k panel pos v) (hc : (writeRow panel pos).instr = c)
    (hp : pos < panelSize panel) (ha : writable panel pos = true)
    (hw : writeElem panel pos v s = .stateRefused) :
    ∃ t, exec c s = .next t ∧ frameRefused .state run s t ∧ unchangedBut [.link] s t := by
  subst hc
  rw [exec_nextWrite h hp ha, hw]
  exact ⟨_, rfl, refuseFrame_spec .state run s⟩

/-- No element but the two thresholds of a monitor has a relation to keep. -/
theorem thresholdsLeft_one {panel : Fin 8} {pos : Nat} (s : State) (h : isThreshold panel pos = false) :
    thresholdsLeft panel [pos] s = true := by
  simp [thresholdsLeft, h]

/-- What is unchanged but for the link from `s'`, and from `s` to `s'` but for other parts, is unchanged but
for both. -/
theorem unchangedBut_trans {l m : List Part} {s s' t : State} (h1 : unchangedBut l s s')
    (h2 : unchangedBut m s' t) : unchangedBut (m ++ l) s t := by
  intro p hp
  have a := h1 p (fun x => hp (List.mem_append_right m x))
  have b := h2 p (fun x => hp (List.mem_append_left l x))
  cases p <;> exact b.trans a

end Sys2Proof.Machine
end

