-- ==== Sys2Proof/Tests/Slice0.lean ====
section
/-! SUPPORT. The model's own tests: the ill-formed commands, one or two single steps of each command against values worked out from the rules, and a witness for the hypotheses of each statement. -/

namespace Sys2Proof.Tests

open Sys2Proof.Machine

set_option Elab.async false

/-! ### Small states and messages -/

/-- A READ of 64 bytes at page 1. -/
def rd : UReq := { source := 1, tag := 2, kind := .read, addr := 0x1000, len := ⟨64, by decide⟩, data := [] }

/-- A WRITE of 2 bytes. -/
def wr : UReq := { source := 3, tag := 4, kind := .write, addr := 0x2FFF, len := ⟨2, by decide⟩, data := [7, 8] }

/-- The READ as the part holds it, of the given traffic, stamped 0. -/
def held (t : Traffic) : Req :=
  { source := 1, tag := 2, kind := .read, addr := 0x1000, len := ⟨64, by decide⟩, data := [], stamp := 0,
    traffic := t, mark := false, epoch := 0 }

/-- The state after a command; the state itself where it answers none. -/
def after (c : Instr) (s : State) : State := (nextState (exec c s)).getD s

/-- The active bank gives every request the result `d`. -/
def allTo (d : Result) (s : State) : State :=
  { s with classifier := { s.classifier with active := { Bank.reset with dflt := d } } }

/-- The request waits in the intake register. -/
def waiting (r : Req) (w : WaitReason) (s : State) : State := { s with intake := .waiting r w }

/-- Class `c` is REGULATED, with the given hold quota, overflow policy and credit. -/
def regulated (c : ClassId) (quota : BitVec 8) (p : Policy) (credit : Int) (s : State) : State :=
  updCls c (fun k => { k with
    active := { k.active with mode := .regulated, quota := quota, policy := p, cap := 512 },
    credit := credit }) s

/-- Entry `i` holds `e`. -/
def entry (i : EntryId) (e : Entry) (s : State) : State := setEntry i e s

/-- Time is `t` and the age limit `n`. -/
def aging (t : Stamp) (n : Nat) (s : State) : State :=
  { s with control := { s.control with time := t }, table := { s.table with ageLimit := n } }

/-- Every entry is ABANDONED. -/
def full (s : State) : State :=
  { s with table := { s.table with entries := Vector.replicate 64 (.abandoned (held .pass) false) } }

/-- The link is in state `l`. -/
def link (l : LinkState) (s : State) : State := { s with link := { s.link with state := l } }

/-- RESET is held. -/
def down : State := { State.reset with control := { Control.reset with resetHeld := true } }

/-- Gauge 7 is `g`. -/
def gauge7 (g : Gauge) (s : State) : State :=
  { s with gauge := { s.gauge with gauges := s.gauge.gauges.set 7 g } }

/-- Monitor 7 is `m`. -/
def monitor7 (m : Monitor) (s : State) : State :=
  { s with gauge := { s.gauge with monitors := s.gauge.monitors.set 7 m } }

/-- Time is `t`. -/
def atTime (t : Stamp) (s : State) : State := { s with control := { s.control with time := t } }

/-- The capture unit is `c`. -/
def capturing (c : Capture) (s : State) : State := { s with capture := c }

/-- The frame whose one command is the given write, and that command. -/
def runOf (p : Fin 8) (pos : BitVec 16) (v : Word) : Run :=
  { seq := 5, body := writeBytes p (some pos) false [v], nRun := 0, data := [] }

def cmdOf (p : Fin 8) (pos : BitVec 16) (v : Word) : Cmd :=
  { write := true, posFlag := true, panel := p, step := false, count := 1, pos := some pos, words := [v],
    whole := true, rest := [] }

/-- The link runs that frame. -/
def writing (p : Fin 8) (pos : BitVec 16) (v : Word) (s : State) : State :=
  { s with link := { s.link with state := .executing (runOf p pos v), wait := .none } }

/-- The frame whose one command is a read of one element. -/
def readOf (p : Fin 8) (pos : BitVec 16) : Run :=
  { seq := 5, body := readBytes p (some pos) false 1, nRun := 0, data := [] }

def readCmdOf (p : Fin 8) (pos : BitVec 16) : Cmd :=
  { write := false, posFlag := true, panel := p, step := false, count := 1, pos := some pos, words := [],
    whole := true, rest := [] }

def reading (p : Fin 8) (pos : BitVec 16) (s : State) : State :=
  { s with link := { s.link with state := .executing (readOf p pos), wait := .none } }

/-- The link runs a frame with the given body. -/
def running (body : List Byte) (s : State) : State :=
  { s with link := { s.link with state := .executing { seq := 5, body := body, nRun := 0, data := [] },
                                 wait := .none } }

/-- The reply that waits, if one does. -/
def replyOf (s : State) : Option (Status × Nat × List Byte) :=
  s.link.stored.map (fun r => (r.status, r.failIdx, r.data))

/-! ### Ill-formed commands -/

theorem test_wf_read_with_data : (Instr.take { rd with data := [0] }).wf = false := by decide
theorem test_wf_write_wrong_length : (Instr.take { wr with data := [7] }).wf = false := by decide
theorem test_wf_fault_return_with_data : (Instr.ret 0 .fault [1]).wf = false := by decide
theorem test_wf_ok_return_too_long : (Instr.ret 0 .ok (List.replicate 257 0)).wf = false := by decide +kernel
theorem test_wf_held_place_beyond_pool : (Instr.heldExpiry 0 128).wf = false := by decide
theorem test_wf_frame_opener_is_no_error : (Instr.openerError 0xC3).wf = false := by decide
theorem test_wf_fetch_opener_is_no_error : (Instr.openerError 0x3C).wf = false := by decide
theorem test_wf_check_fail_needs_whole_frame : (Instr.checkFail [1, 1, 0, 9, 9]).wf = false := by decide
theorem test_wf_repeat_needs_whole_frame : (Instr.repeatFrame [1, 0, 0, 9]).wf = false := by decide
theorem test_wf_command_needs_whole_frame : (Instr.commandFrame [1, 0]).wf = false := by decide
theorem test_wf_accepts : (Instr.take wr).wf = true ∧ (Instr.ret 63 .ok (List.replicate 256 0)).wf = true ∧
    (Instr.heldExpiry 15 127).wf = true ∧ (Instr.commandFrame [1, 1, 0, 9, 8, 7]).wf = true := by decide +kernel

/-! ### Layouts that the manual writes out (spec/12, R163 and the three headers under R196) -/

/-- A read of the data port with count 8, no position, step clear: 0x2808. -/
theorem test_header_port_read : header false false 5 false 8 = 0x2808#16 := by decide
/-- A write of one element of panel 6 with a position: 0xF001. -/
theorem test_header_control_write : header true true 6 false 1 = 0xF001#16 := by decide
/-- A write of four elements of panel 2 with a position and step set: 0xD404. -/
theorem test_header_class_write : header true true 2 true 4 = 0xD404#16 := by decide
/-- The check value of the CRC of R163: 0x29B1 for the nine bytes "123456789". -/
theorem test_crc_check_value :
    crc16 [0x31, 0x32, 0x33, 0x34, 0x35, 0x36, 0x37, 0x38, 0x39] = 0x29B1#16 := by decide +kernel
/-- R161, R171: the body byte pair 0x08 0x28 is a read command of panel 5. -/
theorem test_parse_port_read : (parseCmd [0x08, 0x28]).map (fun k => (k.write, k.panel, k.count)) =
    some (false, 5, 8) := by decide

/-! ### The memory path -/

/-- R6, R22: a PASS request takes entry 0 and the tail of the issue queue. -/
theorem test_take_pass : (after (.take rd) State.reset).table.entries[0] = .queued (held .pass) false ∧
    (after (.take rd) State.reset).table.issueQ = [0] := by decide +kernel
/-- R8: a DENY request is answered at once and sets DENIED, bit 6 of event word 0 (R203). -/
theorem test_take_deny : ((after (.take wr) (allTo .deny State.reset)).answers.map (·.status),
    (after (.take wr) (allTo .deny State.reset)).control.flags0) = ([.denied], 0x0040#16) := by decide +kernel
/-- R10: the waiting PASS request enters the table on one notice, and the notice is spent. -/
theorem test_retry : (let s := after .retry (waiting (held .pass) .entry (notice State.reset));
    (s.intake, s.table.issueQ, s.admission.retryNotices)) = (.empty, [0], 0) := by decide +kernel
/-- R11: age 5 with a limit of 5 is expired, and the register is EMPTY. -/
theorem test_intake_expiry : (let s := after .intakeExpiry (aging 5 5 (waiting (held .pass) .entry State.reset));
    (s.intake, s.answers.map (·.status), s.control.flags0)) = (.empty, [.expired], 0x0002#16) := by
  decide +kernel
/-- R25: the head goes to ISSUED and leaves the issue queue. -/
theorem test_m_port_take : (let s := after .mPortTake (after (.take rd) State.reset);
    (s.table.issueQ, s.table.entries[0], s.sentDown.length)) = ([], .issued (held .pass) false, 1) := by
  decide +kernel
/-- R28: the answer of an OK return, and the entry FREE again. -/
theorem test_return_ok : (let s := after (.ret 63 .ok [9]) (entry 63 (.issued (held .pass) false) State.reset);
    (s.answers.map (fun a => (a.status, a.data)), s.table.entries[63], s.gauge.passCompleted)) =
      ([(.done, [9])], .free, 1) := by decide +kernel
/-- R32: a return for a FREE entry is an orphan, bit 4 of event word 0. -/
theorem test_return_orphan : (let s := after (.ret 0 .ok []) State.reset;
    (s.gauge.orphans, s.control.flags0, s.answers)) = (1, 0x0010#16, []) := by decide +kernel
/-- R30: an ISSUED entry at the limit is ABANDONED and answered EXPIRED: EXPIRED and ABANDONED, bits 1 and
2. -/
theorem test_entry_expiry : (let s := after (.entryExpiry 0) (aging 9 9
      (entry 0 (.issued (held .pass) false) State.reset));
    (s.table.entries[0], s.answers.map (·.status), s.control.flags0)) =
      (.abandoned (held .pass) false, [.expired], 0x0006#16) := by decide +kernel
/-- R92: the second of two held requests leaves the queue; the first stays its head. -/
theorem test_held_expiry : (let s := after (.heldExpiry 15 1) (aging 9 9
      (updCls 15 (fun k => { k with queue := [{ held (.cls 15) with stamp := 8 }, held (.cls 15)] })
        State.reset));
    ((s.cls 15).queue.map (·.stamp), s.answers.length, s.admission.evalRunning)) = ([8], 1, false) := by
  decide +kernel

/-! ### Regulation -/

/-- R66: credit 0 with refill rate 512 and cap 512 is 512 after the boundary (spec/01, stalled intake). -/
theorem test_refill_boundary : ((after .refillBoundary (updCls 3 (fun k => { k with
      active := { k.active with mode := .regulated, refillRate := 512, cap := 512 } })
      { State.reset with control := { Control.reset with time := 100 } })).cls 3).credit = 512 := by
  decide +kernel
/-- R90: a release of 64 bytes at credit 512 leaves 448, and the pointer of level 3 names the class. -/
theorem test_release_event : (let s := after .releaseEvent (startEval (updCls 3 (fun k => { k with
      queue := [held (.cls 3)] }) (regulated 3 2 .stall 512 State.reset)));
    ((s.cls 3).credit, (s.cls 3).queue, s.admission.pointers[3], s.table.issueQ)) =
      (448, [], 3, [0]) := by decide +kernel
/-- R88: with no eligible head the evaluation ends. -/
theorem test_release_event_ends :
    (after .releaseEvent (startEval State.reset)).admission.evalRunning = false := by decide +kernel
/-- R100, R101: the race time at the quiet time makes the class QUIET: bit 9 of event word 0. -/
theorem test_quiet_race : (let s := after (.quietRaceTimeEvent 15) (updCls 15 (fun k => { k with
      active := { k.active with raceEnable := true, quietTime := 5 }, raceTime := 5 }) State.reset);
    ((s.cls 15).quiet, (s.cls 15).raceTime, s.control.flags0)) = (.quiet, 0, 0x0200#16) := by decide +kernel
/-- R121, R122: a sample of 5 on 2^47 - 2 wraps, to -2^47 + 3: bit 11 of event word 0. -/
theorem test_gauge_period_end : (let s := after (.gaugePeriodEnd 7) (atTime 1000
      (gauge7 { Gauge.reset with
        settings := { GaugeSettings.reset with enable := true }, a := 5, acc := 0x7FFFFFFFFFFE#48 }
        State.reset));
    (s.gauge.gauges[7].acc, s.gauge.gauges[7].wrapped, s.gauge.gauges[7].start, s.control.flags0)) =
      (0x800000000003#48, true, 1000, 0x0800#16) := by decide +kernel

/-! ### The control block -/

/-- R182: the time base wraps at 2^32. -/
theorem test_tick_wraps : (after .timeBaseTick
    { State.reset with control := { Control.reset with time := 0xFFFFFFFF } }).control.time = 0 := by
  decide +kernel
/-- R191: a power-on reset drops what the part holds and keeps RESET held. -/
theorem test_power_on : (let s := after .powerOnReset (after (.take rd) State.reset);
    (s.table.issueQ, s.control.resetHeld)) = ([], true) := by decide +kernel
/-- R191, R162: SEL falls while RESET is held, so from the release on the link ignores the rest of that
period; the rise of SEL ends it, and the next opener opens a frame. -/
theorem test_release : (let s := after .resetRelease (after .frameOpener down);
    (s.control.resetHeld, (after .frameOpener s).link.state,
      (after .frameOpener (after (.fetchEnd 3) s)).link.state, (after (.fetchEnd 3) s).sdo)) =
      (false, .idle, .receiving false, [0, 0, 0]) := by decide +kernel
/-- R162: with SEL high at the release the next opener opens a frame. -/
theorem test_release_sel_high : (after .frameOpener (after .resetRelease
    (after (.fetchEnd 0) (after .frameOpener down)))).link.state = .receiving false := by decide +kernel

/-! ### Transfers and frames -/

/-- R162: counted, and SDO drives 0x00 for the first byte and the two after it. -/
theorem test_opener_error : (let s := after (.fetchEnd 2) (after (.openerError 0x55) State.reset);
    (s.link.counters.openerError, s.sdo)) = (1, [0, 0, 0]) := by decide +kernel
/-- R164. -/
theorem test_frame_opener : (after .frameOpener State.reset).link.state = .receiving false := by decide +kernel
/-- R168: LINK_ERROR is bit 14 of event word 0. -/
theorem test_overrun : (let s := after .overrun (running [] State.reset);
    (s.link.counters.overrun, s.control.flags0, s.sdo)) = (1, 0x4000#16, [0]) := by decide +kernel
/-- R165. -/
theorem test_truncation : (let s := after .truncation (link (.receiving false) State.reset);
    (s.link.state, s.link.counters.truncation, s.control.flags0)) = (.idle, 1, 0x4000#16) := by decide +kernel
/-- R166: a frame without commands, sequence 1, whose CRC is one off. -/
theorem test_check_fail : (let s := after (.checkFail ({ mkFrame 1 [] with crc := 0 } : Frame).bytes) (link
      (.receiving false) State.reset);
    (replyOf s, s.link.counters.checkFail)) = (some (.check, 0, []), 1) := by decide +kernel
/-- R167: the kept reply answers its own sequence. -/
theorem test_repeat : (let k : Reply := { seq := 1, status := .full, failIdx := 2, executed := 1, data := [1] };
    let s := after (.repeatFrame (mkFrame 1 []).bytes)
      { link (.receiving false) State.reset with
        link := { Link.reset with state := .receiving false, kept := some k } };
    (s.link.stored == some k, s.link.counters.repeats)) = (true, 1) := by decide +kernel
/-- R169: a frame without commands is answered OK at once. -/
theorem test_command_frame_empty : replyOf (after (.commandFrame (mkFrame 1 []).bytes)
    (link (.receiving false) State.reset)) = some (.ok, 0, []) := by decide +kernel
/-- R170: RDY falls. -/
theorem test_reply_fetch : (after .replyFetch (link (.replyReady false) State.reset)).rdy = false := by
  decide +kernel
/-- R161, R164, notes/assumptions/24.md: a fetch opened in EXECUTING that outlasts the frame. RDY rises under
it, and it clocks 0x00 to its end. -/
theorem test_fetch_outlasts_frame : (let s := after .readCommand (after .replyFetch (reading 0 0 State.reset));
    (s.rdy, (after (.fetchEnd 3) s).rdy, (after (.fetchEnd 3) s).sdo)) = (true, true, [0, 0, 0, 0]) := by
  decide +kernel
/-- R170, R196: a reply without data is 10 bytes long; 9 bytes clocked are a fetch cut short. R162: before
them SDO drove 0x00 for the five bytes of the frame and for the fetch opener. -/
theorem test_fetch_end : (let s := after .replyFetch (after (.commandFrame (mkFrame 1 []).bytes)
      (link (.receiving false) State.reset));
    ((after (.fetchEnd 9) s).rdy, (after (.fetchEnd 10) s).link.state, (after (.fetchEnd 9) s).sdo.length,
      (after (.fetchEnd 9) s).sdo.take 6)) = (true, .idle, 15, List.replicate 6 0) := by decide +kernel

/-! ### Reads -/

/-- R194: panel 0, position 0, reads 0x00013216, least significant byte first. -/
theorem test_read_identity : replyOf (after .readCommand (reading 0 0 State.reset)) =
    some (.ok, 0, [0x16, 0x32, 0x01, 0x00]) := by decide +kernel
/-- R174: the write-only await item is refused ACCESS, command 1. -/
theorem test_read_await_item : replyOf (after .readCommand (reading 6 18 State.reset)) =
    some (.access, 1, []) := by decide +kernel
/-- R123: a negative accumulator latches its sign: -1 reads low word 0xFFFFFFFF and latch 0xFFFFFFFF. -/
theorem test_low_word : (let s := after .accumulatorLowWordRead (reading 4 114
      (gauge7 { Gauge.reset with acc := 0x800000000001#48 } State.reset));
    (replyOf s, s.gauge.gauges[7].latch)) = (some (.ok, 0, [1, 0, 0, 0]), 0xFFFF8000#32) := by decide +kernel
/-- R157: the EMPTY word outside DONE. -/
theorem test_port_empty : replyOf (after .captureDataPortRead (reading 5 11 State.reset)) =
    some (.ok, 0, [0xFF, 0xFF, 0xFF, 0xFF]) := by decide +kernel
/-- R156, R202: the eighth word of the last record, then IDLE. -/
theorem test_port_last_word : (let s := after .captureDataPortRead (reading 5 11
      { State.reset with capture := { Capture.reset with
        state := .done, wordPos := 7,
        buffer := [{ kind := .completed 3 true, stamp := 9, body := RecBody.zero }] } });
    (replyOf s, s.capture.state, s.capture.buffer)) = (some (.ok, 0, [1, 0, 0, 0]), .idle, []) := by
  decide +kernel

/-! ### Writes of the classifier and the class settings -/

/-- R197: rule 47, word 0: valid, both kinds, DENY, source value 5, mask 0xFF. -/
theorem test_shadow_rule_write : (let s := after .shadowRuleWrite (writing 1 188 0xFF051107 State.reset);
    (s.classifier.shadow.rules[47].valid, s.classifier.shadow.rules[47].result,
      s.classifier.shadow.rules[47].srcValue, s.classifier.active.rules[47].valid)) =
      (true, .deny, 5, false) := by decide +kernel
/-- R48: result code 18 names nothing. -/
theorem test_shadow_rule_invalid : replyOf (after .shadowRuleWrite (writing 1 188 0x00001202 State.reset)) =
    some (.invalid, 1, []) := by decide +kernel
/-- R198: class 15, word 0: refill rate 7, cap 9. -/
theorem test_shadow_class_write : (let s := after .shadowClassWrite (writing 2 60 0x00090007 State.reset);
    (((s.cls 15).shadow.refillRate, (s.cls 15).shadow.cap), (s.cls 15).active.cap)) = ((7, 9), 0) := by
  decide +kernel
/-- R52: the power-on shadow set passes. -/
theorem test_commit : (after .commit (writing 6 6 1 State.reset)).classifier.commitPending = true := by
  decide +kernel
/-- R52: outstanding limit 0 in class 6 fails with LIMIT_RANGE (spec/10, Had validation failed). -/
theorem test_commit_invalid : (let s := after .commit (writing 6 6 1 (updCls 6 (fun k =>
      { k with shadow := { k.shadow with limit := 0 } }) State.reset));
    (replyOf s, s.classifier.fault)) = (some (.invalid, 1, []), .cls 6 .limitRange) := by decide +kernel
/-- R54. -/
theorem test_withdraw : (after .withdraw (writing 6 7 0
    { State.reset with classifier := { Classifier.reset with commitPending := true } })).classifier.commitPending
      = false := by decide +kernel

/-! ### Writes of the control panel -/

/-- R64. -/
theorem test_refill_period : (after .refillPeriodWrite (writing 6 10 4096 State.reset)).admission.refillPeriod =
    4096 := by decide +kernel
/-- R64: 1..4096. -/
theorem test_refill_period_range : replyOf (after .refillPeriodWrite (writing 6 10 4097 State.reset)) =
    some (.invalid, 1, []) := by decide +kernel
/-- R26: a write of the limit expires what has reached it; one waiting request, so no free choice. -/
theorem test_age_limit : (let s := after .ageLimitWrite (writing 6 11 9
      (aging 9 0 (entry 63 (.queued (held .pass) false) State.reset)));
    (s.table.entries[63], s.answers.map (·.status))) = (.free, [.expired]) := by decide +kernel
/-- R23: 0..16. -/
theorem test_pass_reserve : (let s := after .passReserveWrite (writing 6 12 16 State.reset);
    (s.table.passReserve, replyOf (after .passReserveWrite (writing 6 12 17 State.reset)))) =
      (16, some (.invalid, 1, [])) := by decide +kernel
/-- R108: a cap below the level brings the level down. -/
theorem test_pool_cap : (after .poolCapWrite (writing 6 13 5
    { State.reset with admission := { Admission.reset with poolCap := 9, poolLevel := 8 } })).admission.poolLevel
      = 5 := by decide +kernel
/-- R107: a level above the cap is held to it. -/
theorem test_pool_level : (after .poolLevelWrite (writing 6 14 0xFFFFFFFF
    { State.reset with admission := { Admission.reset with poolCap := 9 } })).admission.poolLevel = 9 := by
  decide +kernel
/-- R36: SWEPT is bit 15 of event word 0. -/
theorem test_sweep : (let s := after .sweep (writing 6 17 0
      (entry 63 (.abandoned (held .pass) false) State.reset));
    (s.table.entries[63], s.gauge.sweeps, s.control.flags0)) = (.free, 1, 0x8000#16) := by decide +kernel
/-- R79, R97: held requests are answered BOUNCE and credit is the cap. -/
theorem test_restart : (let s := after .regulatorRestart (writing 6 16 0 (updCls 15 (fun k =>
      { k with queue := [held (.cls 15)] }) (regulated 15 1 .stall 0 State.reset)));
    ((s.cls 15).queue, (s.cls 15).credit, s.answers.map (·.status), s.control.flags0)) =
      ([], 512, [.bounce], 0x0080#16) := by decide +kernel
/-- R186: a flag is cleared by a 1, and kept by a 0. -/
theorem test_event_flag_clear : (after .eventFlagClear (writing 6 0 0x0001
    { State.reset with control := { Control.reset with flags0 := 0x8001 } })).control.flags0 = 0x8000 := by
  decide +kernel
/-- R187, R192: bits above the field are ignored. -/
theorem test_enable_mask : (after .enableMaskWrite (writing 6 3 0xFFFF8001 State.reset)).control.mask1 =
    0x8001 := by decide +kernel
/-- R177: an AWAIT with limit 0 ends in the event of its write with 0 µs and LIMIT: the await result reads
0x00020000 (R203). -/
theorem test_await_limit_0 : readElem 6 21 (after .await (writing 6 18 1 State.reset)) = 0x00020000#32 := by
  decide +kernel
/-- R177: a flag set before the write ends it with EVENT: 0x00010000. -/
theorem test_await_flag_set : readElem 6 21 (after .await (writing 6 18 1
    { State.reset with control := { Control.reset with flags0 := 1 } })) = 0x00010000#32 := by decide +kernel
/-- R177, R169: after 5 µs of a limit of 5 the way is LIMIT, and a frame with nothing left is answered. -/
theorem test_await_limit_elapse : (let s := after .awaitLimitElapse { running [] State.reset with
      control := { Control.reset with time := 7 },
      link := { (running [] State.reset).link with wait := .await 1 2, awaitLimit := 5 } };
    (readElem 6 21 s, replyOf s)) = (0x00020005#32, some (.ok, 0, [])) := by decide +kernel
/-- R179. -/
theorem test_delay : (after .delay (writing 6 22 65535 State.reset)).link.wait = .delay 65535 0 := by
  decide +kernel
/-- R179, R169. -/
theorem test_delay_elapse : replyOf (after .delayElapse { running [] State.reset with
    control := { Control.reset with time := 7 },
    link := { (running [] State.reset).link with wait := .delay 5 2 } }) = some (.ok, 0, []) := by
  decide +kernel
/-- R180. -/
theorem test_link_counter_clear : (after .linkCounterClear (writing 6 29 0
    (after (.openerError 1) State.reset))).link.counters = LinkCounters.zero := by decide +kernel
/-- R177: the await limit is a setting of 0..65535. -/
theorem test_register_write : (after .registerWrite (writing 6 20 65535 State.reset)).link.awaitLimit = 65535 := by
  decide +kernel
/-- R174, R194: panel 0 takes no write. -/
theorem test_register_write_access : replyOf (after .registerWrite (writing 0 7 0 State.reset)) =
    some (.access, 1, []) := by decide +kernel

/-! ### Writes of the gauge block and the capture unit -/

/-- R116, R199: class 15, offset 17. -/
theorem test_class_tally_clear : (after .classTallyClear (writing 3 497 0
    (tally 15 (fun t => { t with late := 3 }) State.reset))).gauge.tallies[15] = Tallies.zero := by decide +kernel
/-- R116. -/
theorem test_global_tally_clear : (after .globalTallyClear (writing 3 520 0
    { State.reset with gauge := { GaugeBlock.reset with orphans := 3 } })).gauge.orphans = 0 := by decide +kernel
/-- R125: the accumulator is kept and the period starts again. -/
theorem test_gauge_settings : (let s := after .gaugeSettingsWrite (writing 4 113 2
      (atTime 8 (gauge7 { Gauge.reset with acc := 4 } State.reset)));
    (s.gauge.gauges[7].settings.period, s.gauge.gauges[7].start, s.gauge.gauges[7].acc)) = (2, 8, 4) := by
  decide +kernel
/-- R118: 1..65535. -/
theorem test_gauge_settings_period_0 : replyOf (after .gaugeSettingsWrite (writing 4 113 0 State.reset)) =
    some (.invalid, 1, []) := by decide +kernel
/-- R124. -/
theorem test_accumulator_clear : (after .accumulatorClear (writing 4 117 0
    (gauge7 { Gauge.reset with acc := 4, wrapped := true } State.reset))).gauge.gauges[7] = Gauge.reset := by decide +kernel
/-- R128: an upper threshold equal to the lower one is refused. -/
theorem test_monitor_settings : (let s := after .monitorSettingsWrite (writing 4 120 0x80000001 State.reset);
    (s.gauge.monitors[7].settings.upper, replyOf (after .monitorSettingsWrite
      (writing 4 120 0x80000000 State.reset)))) = (0x80000001, some (.invalid, 1, [])) := by decide +kernel
/-- R137. -/
theorem test_duration_clear : (after .durationClear (writing 4 126 0
    (monitor7 { Monitor.reset with overWindows := 3 } State.reset))).gauge.monitors[7].overWindows = 0 := by decide +kernel
/-- R146. -/
theorem test_capture_settings : (after .captureSettingsWrite (writing 5 0 511 State.reset)).capture.settings.preCount
    = 511 := by decide +kernel
/-- R146: STATE in ARMED. -/
theorem test_capture_settings_busy : replyOf (after .captureSettingsWrite (writing 5 0 1
    { State.reset with capture := { Capture.reset with state := .armed } })) = some (.state, 1, []) := by
  decide +kernel
/-- R149: 256 + 255 + 1 records fit in 512. -/
theorem test_arm : (after .arm (writing 5 8 0 State.reset)).capture.state = .armed := by decide +kernel
/-- R152: CAPTURE_TRIGGERED is bit 12 of event word 0. -/
theorem test_trigger : (let s := after .trigger (writing 5 9 0
      { State.reset with capture := { Capture.reset with state := .armed } });
    (s.capture.state, s.capture.buffer.map (·.kind), s.control.flags0)) =
      (.triggered, [.mark .command], 0x1000#16) := by decide +kernel
/-- R152: STATE outside ARMED. -/
theorem test_trigger_idle : replyOf (after .trigger (writing 5 9 0 State.reset)) = some (.state, 1, []) := by
  decide +kernel
/-- R154: CAPTURE_DONE is bit 13 of event word 0. -/
theorem test_stop : (let s := after .stop (writing 5 10 0
      { State.reset with capture := { Capture.reset with state := .armed } });
    (s.capture.state, s.control.flags0)) = (.done, 0x2000#16) := by decide +kernel

/-! ### Witnesses: a state and operands that meet the hypotheses of each statement, clause by clause -/

/-- The helper state runs the frame of one write. -/
theorem writing_next {p : Fin 8} {pos : BitVec 16} {v : Word} {s : State}
    (hr : s.control.resetHeld = false) (h : parseCmd (runOf p pos v).body = some (cmdOf p pos v)) :
    NextWrite (writing p pos v s) (runOf p pos v) (cmdOf p pos v) p pos.toNat v :=
  ⟨⟨hr, rfl, rfl, h⟩, rfl, rfl, rfl, rfl, rfl, rfl⟩

/-- The helper state runs the frame of one read. -/
theorem reading_next {p : Fin 8} {pos : BitVec 16} {s : State}
    (hr : s.control.resetHeld = false) (h : parseCmd (readOf p pos).body = some (readCmdOf p pos)) :
    NextRead (reading p pos s) (readOf p pos) (readCmdOf p pos) p pos.toNat :=
  ⟨⟨hr, rfl, rfl, h⟩, rfl, rfl, rfl, rfl, rfl, by show (0 : Nat) + 4 ≤ 1024; decide⟩

/-- The next write of the helper state, in the words of the statements. -/
abbrev Writes (p : Fin 8) (pos : BitVec 16) (n : Nat) (v : Word) (s : State) : Prop :=
  NextWrite (writing p pos v s) (runOf p pos v) (cmdOf p pos v) p n v

theorem wit_held_reset : down.control.resetHeld = true ∧ (Instr.commandFrame [0, 0, 0, 0, 0]).wf = true ∧
    Instr.commandFrame [0, 0, 0, 0, 0] ≠ .powerOnReset ∧ Instr.commandFrame [0, 0, 0, 0, 0] ≠ .resetRelease ∧
    Instr.sweep ≠ .powerOnReset ∧ Instr.sweep ≠ .resetRelease ∧ Instr.sweep.wf = true := by
  decide
theorem wit_malformed_take : UReq.wf { rd with data := [0] } = false := by decide
theorem wit_only_malformed_take : ∀ u : UReq, Instr.take wr = .take u → u.wf = true := by
  intro u h; cases h; decide
theorem wit_release : down.control.resetHeld = true ∧ State.reset.control.resetHeld = false := by decide

/-- A bank whose one valid rule, at position 47, names exactly page 1. -/
def lastRule : Bank :=
  let k : Rule := { Rule.reset with valid := true, basePage := 1, limitPage := 1, result := .cls 15, mark := true }
  { Bank.reset with rules := Bank.reset.rules.set 47 k }

theorem wit_first_match : (lastRule.rules[(47 : Fin 48)]).matches rd = true ∧
    ∀ j : Fin 48, j < 47 → (lastRule.rules[j]).matches rd = false := by decide +kernel
theorem wit_no_match : ∀ i : Fin 48, (lastRule.rules[i]).matches wr = false := by decide +kernel

theorem wit_take_denied : wr.wf = true ∧ (allTo .deny State.reset).intake = .empty ∧
    (allTo .deny State.reset).classifier.active.classify wr = (.deny, false) := by decide +kernel
theorem wit_take_pass : State.reset.classifier.active.classify rd = (.pass, false) ∧
    1 ≤ State.reset.freeEntries ∧ (full State.reset).classifier.active.classify rd = (.pass, false) ∧
    (full State.reset).freeEntries = 0 := by decide +kernel

/-- Class 15 gets every request. -/
def to15 (s : State) : State := allTo (.cls 15) s

theorem wit_take_class_direct : (to15 State.reset).classifier.active.classify rd = (.cls 15, false) ∧
    ((to15 State.reset).cls 15).queue = [] ∧ (∀ d : ClassId, ((to15 State.reset).cls d).reason ≠ .entry) ∧
    (to15 State.reset).admissible 15 64 := by decide +kernel
theorem wit_take_class_held : (let s := to15 (regulated 15 1 .bounce 0 State.reset);
    s.classifier.active.classify rd = (.cls 15, false) ∧ ¬ s.admissible 15 64 ∧ s.heldTotal < 128 ∧
      (s.cls 15).queue.length < (s.cls 15).active.quota.toNat) := by decide +kernel
theorem wit_take_class_bounced : (let s := to15 (regulated 15 0 .bounce 0 State.reset);
    s.classifier.active.classify rd = (.cls 15, false) ∧ ¬ s.admissible 15 64 ∧
      ¬ (s.cls 15).queue.length < (s.cls 15).active.quota.toNat ∧ (s.cls 15).active.policy = .bounce) := by
  decide +kernel
theorem wit_take_class_waits : (let s := to15 (regulated 15 0 .stall 0 State.reset);
    s.classifier.active.classify rd = (.cls 15, false) ∧ ¬ s.admissible 15 64 ∧
      ¬ (s.cls 15).queue.length < (s.cls 15).active.quota.toNat ∧ (s.cls 15).active.policy = .stall) := by
  decide +kernel

theorem wit_waiting_takes_nothing : (waiting (held .pass) .entry State.reset).waitOk ∧ rd.wf = true ∧
    (waiting (held .pass) .entry State.reset).intake = .waiting (held .pass) .entry :=
  ⟨trivial, by decide, rfl⟩
/-- At an age equal to the limit, one short of it, and with the limit 0. -/
theorem wit_intake_expiry :
    (let s := aging 65535 65535 (waiting (held .pass) .entry State.reset);
      s.table.ageLimit ≠ 0 ∧ s.table.ageLimit ≤ (s.control.time - (held .pass).stamp).toNat) ∧
    (let s := aging 65534 65535 (waiting (held .pass) .entry State.reset);
      (s.control.time - (held .pass).stamp).toNat < s.table.ageLimit) ∧
    (aging 65535 0 (waiting (held .pass) .entry State.reset)).table.ageLimit = 0 := by decide +kernel
theorem wit_retry : (notice State.reset).admission.retryNotices = 0 + 1 ∧
    (waiting (held (.cls 15)) .slot (notice State.reset)).intake = .waiting (held (.cls 15)) .slot ∧
    (held (.cls 15)).traffic = .cls 15 ∧
    (waiting (held .pass) .entry (notice State.reset)).intake = .waiting (held .pass) .entry ∧
    (held .pass).traffic = .pass ∧ (notice State.reset).waitOk ∧ (notice State.reset).intake = .empty ∧
    State.reset.waitOk ∧ State.reset.admission.retryNotices = 0 :=
  ⟨rfl, rfl, rfl, rfl, rfl, trivial, rfl, trivial, rfl⟩

/-- Entry 63 is QUEUED and heads the issue queue. -/
def offering : State :=
  { entry 63 (.queued (held .pass) false) State.reset with
    table := { (entry 63 (.queued (held .pass) false) State.reset).table with issueQ := [63] } }

theorem wit_m_port_take : offering.table.issueQ = 63 :: [] ∧
    offering.table.entries[(63 : EntryId)] = .queued (held .pass) false ∧ State.reset.table.issueQ = [] := by
  decide +kernel
theorem wit_return : (entry 63 (.issued (held (.cls 15)) true) State.reset).table.entries[(63 : EntryId)] =
    .issued (held (.cls 15)) true := by decide +kernel
theorem wit_late_and_orphan :
    (entry 63 (.abandoned (held (.cls 15)) true) State.reset).table.entries[(63 : EntryId)] =
      .abandoned (held (.cls 15)) true ∧
    (State.reset.table.entries[(0 : EntryId)]).isIssued = false ∧
    (State.reset.table.entries[(0 : EntryId)]).isAbandoned = false ∧
    (offering.table.entries[(63 : EntryId)]).isIssued = false ∧
    (offering.table.entries[(63 : EntryId)]).isAbandoned = false := by decide +kernel
theorem wit_entry_expiry : (aging 9 9 offering).aged (held .pass) = true ∧
    (aging 9 9 offering).table.entries[(63 : EntryId)] = .queued (held .pass) false ∧
    (let s := aging 9 9 (entry 0 (.issued (held .pass) false) State.reset);
      s.table.entries[(0 : EntryId)] = .issued (held .pass) false ∧ s.aged (held .pass) = true) ∧
    (aging 8 9 offering).entryAged 63 = false := by decide +kernel

/-- Two requests of class 15 are held. -/
def holding : State :=
  updCls 15 (fun k => { k with queue := [held (.cls 15), { held (.cls 15) with tag := 9 }] })
    (regulated 15 2 .stall 512 State.reset)

theorem wit_held_expiry : (holding.cls 15).queue[0]? = some (held (.cls 15)) ∧
    (holding.cls 15).queue[1]? = some { held (.cls 15) with tag := 9 } ∧
    (aging 9 9 holding).aged (held (.cls 15)) = true ∧ (aging 9 9 holding).heldAged 15 2 = false := by
  decide +kernel
theorem wit_boundary : (atTime 100 State.reset).boundaryDue = true ∧
    ({ atTime 100 State.reset with classifier := { Classifier.reset with commitPending := true } } :
      State).boundaryDue = true := by decide +kernel
theorem wit_release_event : (startEval holding).admission.evalRunning = true ∧
    (startEval holding).arbiter = some 15 ∧ ((startEval holding).cls 15).queue =
      held (.cls 15) :: [{ held (.cls 15) with tag := 9 }] ∧ (held (.cls 15)).traffic = .cls 15 := by
  decide +kernel
theorem wit_release_ends : (startEval State.reset).admission.evalRunning = true ∧
    (startEval State.reset).waitOk ∧ (startEval State.reset).arbiter = none :=
  ⟨rfl, trivial, by decide +kernel⟩
theorem wit_head_reason : (holding.cls 15).queue = held (.cls 15) :: [{ held (.cls 15) with tag := 9 }] := by
  decide +kernel
theorem wit_open : (State.reset.cls 15).active.mode = .openMode ∧
    State.reset.table.passReserve < State.reset.freeEntries := by decide +kernel

/-- A QUIET class with an enabled race that needs 4 bytes and has 3. -/
def racing : ClassRec :=
  let k : ClassSettings := { ClassSettings.reset with raceEnable := true, activeBytes := 4, quietTime := 9 }
  { ClassRec.reset with active := k, quiet := .quiet, raceBytes := 3, raceTime := 9 }

theorem wit_race_bytes : racing.active.raceEnable = true ∧
    racing.active.activeBytes.toNat ≤ racing.raceBytes + 1 ∧
    { racing with raceBytes := 2 }.raceBytes + 1 < racing.active.activeBytes.toNat ∧
    ClassRec.reset.active.raceEnable = false := by decide
theorem wit_race_time : (let s := updCls 15 (fun _ => racing) State.reset;
    (s.cls 15).active.raceEnable = true ∧ (s.cls 15).active.quietTime.toNat ≤ (s.cls 15).raceTime) := by
  decide +kernel

theorem wit_period_end : (let s := atTime 1000 (gauge7 { Gauge.reset with
      settings := { GaugeSettings.reset with enable := true }, a := 5, acc := 0x7FFFFFFFFFFE#48 } State.reset);
    (s.gauge.gauges[(7 : GaugeId)]).settings.enable = true ∧
      (s.gauge.gauges[(7 : GaugeId)]).settings.period.toNat ≤ s.elapsed (s.gauge.gauges[(7 : GaugeId)]).start ∧
      140737488355327 < (s.gauge.gauges[(7 : GaugeId)]).acc.toInt + 5) := by decide +kernel

/-- An enabled monitor with a window of 2 samples. -/
def watching : Monitor :=
  { Monitor.reset with settings := { MonSettings.reset with enable := true, window := 2, upper := 5, lower := 0 } }

theorem wit_monitor : Monitor.reset.settings.enable = false ∧ watching.settings.enable = true ∧
    watching.live.pos + 1 < watching.settings.window.toNat ∧
    watching.settings.window.toNat ≤ { watching.live with pos := 1 }.pos + 1 := by decide
theorem wit_window_end : watching.settings.ok ∧
    ({ watching with live := { watching.live with state := .over } } : Monitor).settings.ok ∧
    ({ watching with live := { watching.live with state := .over } } : Monitor).live.state = .over ∧
    ({ watching with live := { watching.live with state := .under } } : Monitor).live.state = .under := by
  unfold MonSettings.ok; decide

/-- A HELD record and a capture that keeps one pre-trigger and one post record. -/
def rec0 : Rec := { kind := .held, stamp := 0, body := (held (.cls 15)).body }
def cap1 (st : CapState) (buffer : List Rec) : Capture :=
  { Capture.reset with settings := { CapSettings.reset with preCount := 1, postCount := 1 },
                       state := st, buffer := buffer }

theorem wit_capture : ({ CapSettings.reset with kindSet := 0 } : CapSettings).eligible rec0 = false ∧
    (cap1 .idle []).state = .idle ∧ (cap1 .done []).state = .done ∧
    (cap1 .armed []).settings.eligible rec0 = true ∧ (cap1 .armed []).buffer.length < 1 ∧
    (cap1 .armed [rec0]).buffer.length = (cap1 .armed [rec0]).settings.preCount ∧
    (cap1 .triggered [rec0]).settings.eligible rec0 = true ∧
    (cap1 .triggered [rec0]).settings.postCount ≤ (cap1 .triggered [rec0]).postAppended + 1 := by decide
theorem wit_trigger_source : (cap1 .armed []).state = .armed ∧
    ({ CapSettings.reset with trigUnder := 0x80 } : CapSettings).selects (.monUnder 7) = true ∧
    (cap1 .done []).state ≠ .armed ∧ CapSettings.reset.selects .fault = false := by decide
theorem wit_raise : Flag.monUnder 7 ≠ Flag.monOver 7 := by decide

theorem wit_openers : State.reset.waitOk ∧ (0x55#8 ≠ 0xC3#8 ∧ 0x55#8 ≠ 0x3C#8) ∧
    State.reset.link.state = .idle ∧ (link (.replyReady false) State.reset).waitOk ∧
    (link (.replyReady false) State.reset).link.state = .replyReady false ∧
    (∀ fetching : Bool, State.reset.link.state ≠ .replyReady fetching) ∧ State.reset.link.sel ≠ .ignored :=
  ⟨trivial, by decide, rfl, trivial, rfl, by decide, by decide⟩
/-- RESET was released while SEL was low. -/
theorem wit_ignoring : (after .resetRelease (after .frameOpener down)).control.resetHeld = false ∧
    (after .resetRelease (after .frameOpener down)).link.sel = .ignored := by decide +kernel
theorem wit_overrun : (running [1] State.reset).link.state =
    .executing { seq := 5, body := [1], nRun := 0, data := [] } ∧
    (running [1] State.reset).link.wait = .none := by decide
theorem wit_truncation : (link (.receiving true) State.reset).link.state = .receiving true ∧
    (link (.receiving false) State.reset).link.state = .receiving false ∧
    (link (.receiving true) State.reset).link.sel ≠ .ignored := by decide

/-- A frame whose CRC is wrong. -/
def badFrame : Frame := { mkFrame 1 [] with crc := 0 }

theorem wit_check_fail : parseFrame badFrame.bytes = some badFrame ∧ crc16 badFrame.covered ≠ badFrame.crc := by
  decide +kernel
theorem wit_repeat : parseFrame (mkFrame 1 []).bytes = some (mkFrame 1 []) ∧
    crc16 (mkFrame 1 []).covered = (mkFrame 1 []).crc ∧ (mkFrame 1 []).seq ≠ 0 := by decide +kernel
/-- The bytes of a long frame of equal bytes spell it. -/
theorem parse_long (seq lo hi : Byte) (n : Nat) (hn : (bytesHalf lo hi).toNat = n)
    (h0 : (BitVec.ofNat 16 n).extractLsb' 0 8 = lo) (h1 : (BitVec.ofNat 16 n).extractLsb' 8 8 = hi) :
    parseFrame (mkFrame seq (List.replicate n 1)).bytes = some (mkFrame seq (List.replicate n 1)) := by
  have hb : (mkFrame seq (List.replicate n 1)).bytes = seq :: lo :: hi :: (List.replicate n (1 : Byte) ++
      halfBytes (mkFrame seq (List.replicate n 1)).crc) := by
    subst h0 h1
    simp [Frame.bytes, Frame.covered, mkFrame, halfBytes]
  rw [hb]
  generalize hc : (mkFrame seq (List.replicate n 1)).crc = crc
  simp only [parseFrame, hn, List.drop_left' (List.length_replicate (n := n) (a := (1 : Byte))),
    List.take_left' (List.length_replicate (n := n) (a := (1 : Byte))), halfBytes, bytesHalf_halfBytes]
  rw [← hc]
  rfl

/-- The CRC of a frame that firmware builds is its own. -/
theorem mkFrame_crc (seq : Byte) (body : List Byte) : crc16 (mkFrame seq body).covered = (mkFrame seq body).crc :=
  rfl

/-- A body of 1024 bytes runs, one of 1025 is too long; a sequence of 0 is never a repeat. -/
theorem wit_command_frame :
    (let f := mkFrame 0 (List.replicate 1024 1);
      parseFrame f.bytes = some f ∧ crc16 f.covered = f.crc ∧ f.seq = 0 ∧ f.body.length ≤ 1024) ∧
    (let f := mkFrame 2 (List.replicate 1025 1);
      parseFrame f.bytes = some f ∧ crc16 f.covered = f.crc ∧ 1024 < f.body.length) ∧
    ∀ k : Reply, (link (.receiving false) State.reset).link.kept = some k → k.seq ≠ 2 :=
  ⟨⟨parse_long 0 0 4 1024 (by decide) (by decide) (by decide), mkFrame_crc _ _, rfl,
      (List.length_replicate (n := 1024) (a := (1 : Byte))).le⟩,
    ⟨parse_long 2 1 4 1025 (by decide) (by decide) (by decide), mkFrame_crc _ _,
      Nat.lt_of_lt_of_eq (by decide) (List.length_replicate (n := 1025) (a := (1 : Byte))).symm⟩,
    fun _ h => nomatch h⟩

/-- A reply that waits, and one under way in a fetch. -/
def reply0 : Reply := { seq := 1, status := .ok, failIdx := 0, executed := 0, data := [] }
def fetching : State :=
  { State.reset with link := { Link.reset with state := .replyReady true, stored := some reply0 } }

theorem wit_fetch : fetching.link.state = .replyReady true ∧ fetching.link.stored = some reply0 ∧
    reply0.bytes.length = 10 ∧ fetching.link.sel ≠ .ignored ∧ State.reset.link.state ≠ .replyReady true := by decide +kernel

/-- A frame waits, with a limit of 9, for COMMIT_DONE (mask 1) or DENIED (mask 0x40). -/
def awaiting (m0 : BitVec 16) (s : State) : State :=
  { s with link := { s.link with state := .executing { seq := 5, body := [1], nRun := 0, data := [] },
                                 wait := .await m0 0, awaitLimit := 9 } }

/-- The take of a denied request raises DENIED, which ends a wait for it and not one for COMMIT_DONE. -/
theorem wit_masked_raise :
    ((awaiting 0x40 (allTo .deny State.reset)).waitOk ∧
      (awaiting 0x40 (allTo .deny State.reset)).link.wait = .await 0x40 0 ∧
      exec (.take wr) (awaiting 0x40 (allTo .deny State.reset)) =
        .next (after (.take wr) (awaiting 0x40 (allTo .deny State.reset))) ∧
      maskedFlagSet 0x40 0 (after (.take wr) (awaiting 0x40 (allTo .deny State.reset))) = true) ∧
    ((awaiting 1 (allTo .deny State.reset)).waitOk ∧
      exec (.take wr) (awaiting 1 (allTo .deny State.reset)) =
        .next (after (.take wr) (awaiting 1 (allTo .deny State.reset))) ∧
      maskedFlagSet 1 0 (after (.take wr) (awaiting 1 (allTo .deny State.reset))) = false) :=
  ⟨⟨⟨by decide +kernel, by decide, _, rfl⟩, rfl, rfl, by decide +kernel⟩,
    ⟨by decide +kernel, by decide, _, rfl⟩, rfl, by decide +kernel⟩

/-- An overrun raises LINK_ERROR, bit 14 of event word 0; a wait for it, and one for COMMIT_DONE. -/
theorem wit_overrun_wait :
    (awaiting 0x4000 State.reset).waitOk ∧ (0x4000#16).getLsbD 14 = true ∧
    (awaiting 1 State.reset).waitOk ∧ (1#16).getLsbD 14 = false ∧
    (awaiting 1 State.reset).control.resetHeld = false ∧ (awaiting 1 State.reset).link.sel ≠ .ignored ∧
    (awaiting 1 State.reset).link.wait = .await 1 0 ∧
    (awaiting 1 State.reset).link.state = .executing { seq := 5, body := [1], nRun := 0, data := [] } :=
  ⟨⟨by decide +kernel, by decide, _, rfl⟩, rfl, ⟨by decide +kernel, by decide, _, rfl⟩, rfl, rfl, by decide, rfl, rfl⟩

/-- With no wait, and while a DELAY runs, no AWAIT does; the take of a denied request then answers a next
state. -/
theorem wit_no_await : (∀ (m0 : BitVec 16) (since : Stamp), State.reset.link.wait ≠ .await m0 since) ∧
    ofOtherBlocks (.take wr) ∧
    exec (.take wr) (allTo .deny State.reset) = .next (after (.take wr) (allTo .deny State.reset)) ∧
    (allTo .deny State.reset).link.wait = .none ∧
    (let s := { running [1] State.reset with link := { (running [1] State.reset).link with wait := .delay 9 0 } };
      ∀ (m0 : BitVec 16) (since : Stamp), s.link.wait ≠ .await m0 since) :=
  ⟨nofun, .inl ⟨wr, rfl⟩, rfl, rfl, nofun⟩

/-- A body that ends within a header; one that ends within its write data; a step past the end of panel 0;
a write of panel 0; a read with 1021 bytes of data before it. -/
theorem wit_failed_checks : parseCmd [0x08] = none ∧
    (∃ k, parseCmd [0x01, 0xF0, 0x10, 0x00, 1] = some k ∧ k.isRow 0 .sweep = false ∧
      k.isRow 0 .regulatorRestart = true ∧ k.parseFails 0 = true) ∧
    (∃ k, parseCmd [0x02, 0x44, 0x07, 0x00] = some k ∧ k.isRow 0 .readCommand = true ∧
      k.parseFails 0 = false ∧ k.rangeFails 0 = true) ∧
    (∃ k, parseCmd (writeBytes 0 none false [0]) = some k ∧ k.isRow 0 .registerWrite = true ∧
      k.parseFails 0 = false ∧ k.rangeFails 0 = false ∧ k.accessFails 0 = true) ∧
    (∃ k, parseCmd (readBytes 0 none false 1) = some k ∧ k.isRow 0 .readCommand = true ∧
      k.parseFails 0 = false ∧ k.rangeFails 0 = false ∧ k.accessFails 0 = false ∧ k.write = false ∧
      1024 < 1021 + 4 * k.count) :=
  ⟨by decide, ⟨_, rfl, by decide, by decide, by decide⟩, ⟨_, rfl, by decide, by decide, by decide⟩,
    ⟨_, rfl, by decide, by decide, by decide, by decide⟩,
    ⟨_, rfl, by decide, by decide, by decide, by decide, by decide, by decide⟩⟩

/-- The command that writes both thresholds of monitor 7: 5 above 2 is done, 2 above 5 is refused. -/
def both (v w : Word) : Cmd :=
  { write := true, posFlag := true, panel := 4, step := true, count := 2, pos := some 120, words := [v, w],
    whole := true, rest := [] }

theorem wit_write_whole : NextCommand (running (writeBytes 4 (some 120) true [5, 2]) State.reset)
    { seq := 5, body := writeBytes 4 (some 120) true [5, 2], nRun := 0, data := [] } (both 5 2) :=
  ⟨rfl, rfl, rfl, by decide⟩
theorem wit_write_refused : NextCommand (running (writeBytes 4 (some 120) true [2, 5]) State.reset)
    { seq := 5, body := writeBytes 4 (some 120) true [2, 5], nRun := 0, data := [] } (both 2 5) :=
  ⟨rfl, rfl, rfl, by decide⟩
theorem wit_write_whole_thresholds :
    ((writeAll 4 [(120, 5), (121, 2)] State.reset).map (fun s => thresholdsLeft 4 [120, 121] s)) = some true ∧
    ((writeAll 4 [(120, 2), (121, 5)] State.reset).map (fun s => thresholdsLeft 4 [120, 121] s)) =
      some false := by decide +kernel

/-- The two elements 512 and 513 of panel 3 (R199) in one read. -/
def twoWords : Cmd :=
  { write := false, posFlag := true, panel := 3, step := true, count := 2, pos := some 512, words := [],
    whole := true, rest := [] }

theorem wit_read_snapshot : parseCmd (readBytes 3 (some 512) true 2) = some twoWords ∧
    twoWords.rangeFails 0 = false ∧
    ∀ p ∈ twoWords.positions 0, readRow twoWords.panel p = .readCommand ∧
      ¬ (twoWords.panel = 4 ∧ p % 16 = 3) ∧ writeOnly twoWords.panel p = false := by decide +kernel

/-- The intake EMPTY and WAITING; an entry in each state, the QUEUED one at its place in the issue queue. -/
theorem wit_elements : State.reset.intake = .empty ∧
    (waiting (held (.cls 15)) .entry State.reset).intake = .waiting (held (.cls 15)) .entry ∧
    State.reset.table.entries[(0 : EntryId)] = .free ∧
    offering.table.entries[(63 : EntryId)] = .queued (held .pass) false ∧ offering.issueQOk ∧
    offering.table.issueQ[0]? = some 63 ∧
    (entry 63 (.issued (held (.cls 15)) true) State.reset).table.entries[(63 : EntryId)] =
      .issued (held (.cls 15)) true ∧
    (full State.reset).table.entries[(63 : EntryId)] = .abandoned (held .pass) false :=
  ⟨rfl, rfl, by decide +kernel, by decide +kernel, ⟨by decide +kernel, by decide +kernel⟩, rfl,
    by decide +kernel, by decide +kernel⟩

theorem wit_identity : NextCommand (writing 0 7 0 State.reset) (runOf 0 7 0) (cmdOf 0 7 0) ∧
    (cmdOf 0 7 0).write = true ∧ (cmdOf 0 7 0).panel = 0 ∧ (cmdOf 0 7 0).parseFails 0 = false ∧
    (cmdOf 0 7 0).rangeFails 0 = false ∧
    (writing 0 7 0 State.reset).link.cursors[(cmdOf 0 7 0).panel] = 0 :=
  ⟨⟨rfl, rfl, rfl, by decide⟩, rfl, rfl, by decide, by decide, by decide⟩
theorem wit_low_word : NextRead (reading 4 114 State.reset) (readOf 4 114) (readCmdOf 4 114) 4
    (16 * (7 : GaugeId).val + 2) := reading_next rfl (by decide)
theorem wit_high_word : NextRead (reading 4 115 State.reset) (readOf 4 115) (readCmdOf 4 115) 4
    (16 * (7 : GaugeId).val + 3) := reading_next rfl (by decide)
/-- One command that reads the low and the high word of gauge 7. -/
theorem wit_both_words : ∃ k : Cmd, NextCommand (running (readBytes 4 (some 114) true 2) State.reset)
    { seq := 5, body := readBytes 4 (some 114) true 2, nRun := 0, data := [] } k ∧ k.write = false ∧
    k.whole = true ∧ k.panel = 4 ∧ k.step = true ∧ k.count = 2 ∧
    k.start (running (readBytes 4 (some 114) true 2) State.reset).link.cursors[k.panel] =
      16 * (7 : GaugeId).val + 2 :=
  ⟨_, ⟨rfl, rfl, rfl, rfl⟩, by decide, by decide, by decide, by decide, by decide, by decide⟩
theorem wit_port_done : NextRead (reading 5 11 (capturing (cap1 .done [rec0]) State.reset)) (readOf 5 11)
    (readCmdOf 5 11) 5 11 ∧ (cap1 .done [rec0]).state = .done ∧ (cap1 .done [rec0]).buffer = rec0 :: [] :=
  ⟨reading_next rfl (by decide), rfl, rfl⟩
theorem wit_port_empty : NextRead (reading 5 11 State.reset) (readOf 5 11) (readCmdOf 5 11) 5 11 ∧
    State.reset.capture.state ≠ .done := ⟨reading_next rfl (by decide), by decide⟩

/-- A command that reads the data port 8 times in DONE, which holds the given records. -/
def portReads (records : List Rec) : State :=
  { running (readBytes 5 (some 11) false 8) State.reset with capture := cap1 .done records }

/-- Its words are all those of a lone record, or those of the first of several. -/
theorem wit_port_count : ∃ k : Cmd, ∀ records : List Rec, 1 ≤ records.length →
    NextCommand (portReads records)
      { seq := 5, body := readBytes 5 (some 11) false 8, nRun := 0, data := [] } k ∧ k.write = false ∧
    k.whole = true ∧ k.panel = 5 ∧ k.step = false ∧ k.count = 8 ∧
    k.start (portReads records).link.cursors[k.panel] = 11 ∧ (portReads records).capture.state = .done ∧
    (portReads records).capture.wordPos.val + k.count ≤ 8 * (portReads records).capture.buffer.length ∧
    ([] : List Byte).length + 4 * k.count ≤ 1024 :=
  ⟨_, fun records h => ⟨⟨rfl, rfl, rfl, rfl⟩, by decide, by decide, by decide, by decide, by decide,
    rfl, rfl, by show 0 + 8 ≤ 8 * records.length; omega, by decide⟩⟩

/-- A commit is pending. -/
def pendingCommit : State :=
  { State.reset with classifier := { Classifier.reset with commitPending := true } }

theorem wit_shadow_rule : Writes 1 191 (4 * (47 : Fin 48).val + (3 : Fin 4).val) 1 State.reset ∧
    State.reset.classifier.commitPending = false ∧
    ((State.reset.classifier.shadow.rules[(47 : Fin 48)]).write 3 1).isSome = true :=
  ⟨writing_next rfl (by decide), rfl, by decide +kernel⟩
theorem wit_shadow_default : Writes 1 192 192 17 State.reset ∧
    Result.ofCode ((17 : Word).toNat % 32) = some .deny := ⟨writing_next rfl (by decide), by decide⟩
theorem wit_shadow_default_invalid : (Writes 1 192 192 18 State.reset ∧ 17 < (18 : Word).toNat % 32) ∧
    Writes 1 192 192 31 State.reset ∧ 17 < (31 : Word).toNat % 32 :=
  ⟨⟨writing_next rfl (by decide), by decide⟩, writing_next rfl (by decide), by decide⟩
theorem wit_shadow_rule_invalid : Writes 1 188 (4 * (47 : Fin 48).val + (0 : Fin 4).val) 0 State.reset ∧
    (State.reset.classifier.shadow.rules[(47 : Fin 48)]).write 0 0 = none :=
  ⟨writing_next rfl (by decide), by decide +kernel⟩
theorem wit_shadow_class : Writes 2 63 (4 * (15 : ClassId).val + (3 : Fin 4).val) 1 State.reset :=
  writing_next rfl (by decide)
theorem wit_shadow_pending : pendingCommit.classifier.commitPending = true ∧ Writes 1 192 192 0 pendingCommit ∧
    Writes 2 63 63 0 pendingCommit := ⟨rfl, writing_next rfl (by decide), writing_next rfl (by decide)⟩

/-- A shadow set that fails: class 6 with outstanding limit 0. -/
def badShadow : State := updCls 6 (fun k => { k with shadow := { k.shadow with limit := 0 } }) State.reset

theorem wit_commit : Writes 6 6 6 1 State.reset ∧ State.reset.validate = .none :=
  ⟨writing_next rfl (by decide), by decide +kernel⟩
theorem wit_commit_fails : Writes 6 6 6 1 badShadow ∧ badShadow.classifier.commitPending = false ∧
    badShadow.validate ≠ .none := ⟨writing_next rfl (by decide), rfl, by decide +kernel⟩
theorem wit_withdraw : Writes 6 7 7 0 pendingCommit := writing_next rfl (by decide)
theorem wit_pending_commit : Writes 6 6 6 1 pendingCommit ∧ pendingCommit.classifier.commitPending = true :=
  ⟨writing_next rfl (by decide), rfl⟩

theorem wit_refill_period : (Writes 6 10 10 1 State.reset ∧ Writes 6 10 10 4096 State.reset) ∧
    Writes 6 10 10 0 State.reset ∧ Writes 6 10 10 4097 State.reset :=
  ⟨⟨writing_next rfl (by decide), writing_next rfl (by decide)⟩, writing_next rfl (by decide),
    writing_next rfl (by decide)⟩
theorem wit_pass_reserve : Writes 6 12 12 16 State.reset ∧ Writes 6 12 12 17 State.reset ∧
    Writes 6 12 12 0 { State.reset with table := { Table.reset with passReserve := 16 } } :=
  ⟨writing_next rfl (by decide), writing_next rfl (by decide), writing_next rfl (by decide)⟩
theorem wit_pool : Writes 6 14 14 0xFFFFFFFF State.reset ∧ Writes 6 13 13 65535 State.reset ∧
    Writes 6 13 13 65536 State.reset :=
  ⟨writing_next rfl (by decide), writing_next rfl (by decide), writing_next rfl (by decide)⟩
theorem wit_age_limit : Writes 6 11 11 65535 (aging 65535 0 offering) ∧ Writes 6 11 11 0 (aging 9 9 offering) ∧
    Writes 6 11 11 65536 State.reset :=
  ⟨writing_next rfl (by decide), writing_next rfl (by decide), writing_next rfl (by decide)⟩
theorem wit_sweep : Writes 6 17 17 0 (full State.reset) := writing_next rfl (by decide)
theorem wit_restart : Writes 6 16 16 0 holding := writing_next rfl (by decide)
theorem wit_flags_and_masks : Writes 6 0 0 1 State.reset ∧ Writes 6 1 1 0xFFFF State.reset ∧
    Writes 6 2 2 0xFFFFFFFF State.reset ∧ Writes 6 3 3 1 State.reset :=
  ⟨writing_next rfl (by decide), writing_next rfl (by decide), writing_next rfl (by decide),
    writing_next rfl (by decide)⟩
theorem wit_link_settings : Writes 6 19 19 1 State.reset ∧ Writes 6 20 20 65535 State.reset ∧
    Writes 6 20 20 65536 State.reset ∧ Writes 6 29 29 0 State.reset :=
  ⟨writing_next rfl (by decide), writing_next rfl (by decide), writing_next rfl (by decide),
    writing_next rfl (by decide)⟩
theorem wit_waits_begin : Writes 6 18 18 1 State.reset ∧ Writes 6 22 22 65535 State.reset ∧
    Writes 6 22 22 0 State.reset ∧ Writes 6 22 22 65536 State.reset :=
  ⟨writing_next rfl (by decide), writing_next rfl (by decide), writing_next rfl (by decide),
    writing_next rfl (by decide)⟩

/-- A frame delayed by 9 µs since stamp 0. -/
def delaying : State :=
  { running [1] State.reset with link := { (running [1] State.reset).link with wait := .delay 9 0 } }

/-- At the limit and one microsecond before it. -/
theorem wit_waits_elapse : (awaiting 1 (atTime 9 State.reset)).link.wait = .await 1 0 ∧
    (awaiting 1 (atTime 9 State.reset)).link.awaitLimit ≤ ((atTime 9 State.reset).control.time - 0).toNat ∧
    ((atTime 8 State.reset).control.time - 0).toNat < (awaiting 1 (atTime 8 State.reset)).link.awaitLimit ∧
    (atTime 9 delaying).link.wait = .delay 9 0 ∧ 9 ≤ ((atTime 9 delaying).control.time - 0).toNat ∧
    ((atTime 8 delaying).control.time - 0).toNat < 9 := by decide +kernel

theorem wit_gauge_clears : Writes 3 497 (32 * (15 : ClassId).val + 17) 0 State.reset ∧
    Writes 3 520 520 0 State.reset ∧ Writes 4 117 (16 * (7 : GaugeId).val + 5) 0 State.reset ∧
    Writes 4 126 (16 * (7 : GaugeId).val + 14) 0 State.reset :=
  ⟨writing_next rfl (by decide), writing_next rfl (by decide), writing_next rfl (by decide),
    writing_next rfl (by decide)⟩
theorem wit_gauge_settings : Writes 4 113 (16 * (7 : GaugeId).val + (1 : Fin 2).val) 65535 State.reset ∧
    (GaugeSettings.reset.write 1 65535).isSome = true ∧
    Writes 4 113 (16 * (7 : GaugeId).val + (1 : Fin 2).val) 0 State.reset ∧
    GaugeSettings.reset.write 1 0 = none :=
  ⟨writing_next rfl (by decide), by decide, writing_next rfl (by decide), by decide⟩
/-- An upper threshold one above the lower one, equal to it, and a window of 0. -/
theorem wit_monitor_settings :
    Writes 4 120 (16 * (7 : GaugeId).val + 6 + (2 : Fin 4).val) 0x80000001 State.reset ∧
    MonSettings.reset.lower.toInt < (0x80000001 : Word).toInt ∧
    Writes 4 120 (16 * (7 : GaugeId).val + 6 + (2 : Fin 4).val) 0x80000000 State.reset ∧
    (0x80000000 : Word).toInt ≤ MonSettings.reset.lower.toInt ∧
    Writes 4 118 (16 * (7 : GaugeId).val + 6 + (0 : Fin 4).val) 0 State.reset ∧
    MonSettings.reset.write 6 0 = none :=
  ⟨writing_next rfl (by decide), by decide, writing_next rfl (by decide), by decide,
    writing_next rfl (by decide), by decide⟩

/-- An idle capture whose records would be one too many. -/
def tooLong : State :=
  let k : CapSettings := { CapSettings.reset with preCount := 257 }
  capturing { Capture.reset with settings := k } State.reset

theorem wit_capture_settings : Writes 5 0 (0 : Fin 5).val 511 State.reset ∧
    State.reset.capture.state = .idle ∧ (CapSettings.reset.write 0 511).isSome = true ∧
    Writes 5 4 (4 : Fin 5).val 0 (capturing (cap1 .armed []) State.reset) :=
  ⟨writing_next rfl (by decide), rfl, by decide, writing_next rfl (by decide)⟩
theorem wit_capture_settings_invalid :
    (Writes 5 0 (0 : Fin 5).val 512 State.reset ∧ CapSettings.reset.write 0 512 = none) ∧
    (Writes 5 1 (1 : Fin 5).val 0 State.reset ∧ CapSettings.reset.write 1 0 = none) ∧
    Writes 5 1 (1 : Fin 5).val 512 State.reset ∧ CapSettings.reset.write 1 512 = none :=
  ⟨⟨writing_next rfl (by decide), by decide⟩, ⟨writing_next rfl (by decide), by decide⟩,
    writing_next rfl (by decide), by decide⟩
theorem wit_arm : Writes 5 8 8 0 State.reset ∧
    State.reset.capture.settings.preCount + State.reset.capture.settings.postCount + 1 ≤ 512 ∧
    Writes 5 8 8 0 tooLong ∧
    512 < tooLong.capture.settings.preCount + tooLong.capture.settings.postCount + 1 ∧
    Writes 5 8 8 0 (capturing (cap1 .triggered []) State.reset) :=
  ⟨writing_next rfl (by decide), by decide, writing_next rfl (by decide), by decide,
    writing_next rfl (by decide)⟩
theorem wit_trigger_and_stop : Writes 5 9 9 0 (capturing (cap1 .armed []) State.reset) ∧
    Writes 5 9 9 0 State.reset ∧ Writes 5 10 10 0 (capturing (cap1 .triggered []) State.reset) ∧
    Writes 5 10 10 0 State.reset :=
  ⟨writing_next rfl (by decide), writing_next rfl (by decide), writing_next rfl (by decide),
    writing_next rfl (by decide)⟩

theorem wit_frame_bytes : (mkFrame 255 (List.replicate 1024 1)).body.length < 65536 := by decide +kernel
theorem wit_command_bytes : List.replicate 127 (0 : Word) ≠ [] ∧ (List.replicate 127 (0 : Word)).length ≤ 127 ∧
    (127#7 : BitVec 7) ≠ 0 := by decide +kernel
theorem wit_read_back : (Rule.reset.write 0 6).isSome = true ∧ (GaugeSettings.reset.write 0 0).isSome = true ∧
    (MonSettings.reset.write 9 0).isSome = true ∧ (CapSettings.reset.write 4 0xFFFFFFFF).isSome = true := by
  decide

/-- A step from the state after one take. -/
def stepping : State := { after (.take rd) State.reset with pending := [.mPortTake] }

theorem wit_step : ∃ t, step stepping = .next t := ⟨_, rfl⟩
theorem wit_step_queue : stepping.issueQOk ∧ stepping.outstandingOk :=
  ⟨⟨by decide +kernel, by decide +kernel⟩, by unfold State.outstandingOk; decide +kernel⟩
theorem wit_step_hold : stepping.holdOk ∧ stepping.queuesOk ∧ stepping.creditOk ∧ stepping.poolOk ∧
    stepping.settingsOk := by
  unfold State.holdOk State.queuesOk State.creditOk State.poolOk State.settingsOk; decide +kernel
theorem wit_step_capture : (capturing (cap1 .armed [rec0]) stepping).gaugesOk ∧
    stepping.monitorsOk ∧ ({ cap1 .armed [rec0] with preHeld := 1 } : Capture).ok := by
  refine ⟨?_, ?_, ?_⟩
  · unfold State.gaugesOk; decide +kernel
  · unfold State.monitorsOk Monitor.ok MonSettings.ok; decide +kernel
  · exact ⟨by decide, by decide, by decide, by decide, by decide, by decide, rfl, by decide, rfl, by decide⟩
theorem wit_step_waits : (awaiting 1 stepping).waitOk ∧ fetching.waitOk ∧ fetching.link.replyOk :=
  ⟨⟨by decide +kernel, by decide, _, rfl⟩, trivial, nofun⟩
theorem wit_step_silent : down.silentOk ∧ (after .resetRelease (after .frameOpener down)).silentOk :=
  ⟨fun _ => ⟨rfl, rfl⟩, fun _ => by decide +kernel⟩
theorem wit_step_valid : stepping.validOk ∧ stepping.raceOk := by
  unfold State.validOk State.raceOk; decide +kernel

end Sys2Proof.Tests
end

section

namespace Sys2Proof.Machine

/-! ### COMMIT (R52, R53) -/

/-- A write of the commit item of the control panel is the COMMIT command, whatever its value (R195). -/
theorem writeElem_commitItem (v : Word) (s : State) : writeElem 6 6 v s = writeCommit s := rfl

/-- COMMIT in PENDING runs no validation: the state of the classifier refuses it (R53). -/
theorem writeCommit_of_pending {s : State} (h : s.classifier.commitPending = true) :
    writeCommit s = .stateRefused := by
  unfold writeCommit
  exact if_pos h

/-- Settles O41: the one write of the frame's command is refused by the state of its block, so the reply is
all that changes. -/
theorem pendingCommitRefusesCommit : Obligations.PendingCommitRefusesCommit := by
  intro run k v s hnext hpending
  have hrefused : writeElem 6 6 v s = .stateRefused := by
    rw [writeElem_commitItem, writeCommit_of_pending hpending]
  exact nextWrite_state hnext (c := .commit) rfl (by decide) (by decide) hrefused

end Sys2Proof.Machine

end

section

namespace Sys2Proof.Machine

/-! ### The admission of an OPEN class (R68) -/

/-- An OPEN class has room as its one admission condition. -/
theorem blockReason_none_iff_of_open {s : State} {c : ClassId} (hopen : (s.cls c).active.mode = .openMode)
    (n : Nat) : s.blockReason c n = .none ↔ s.table.passReserve < s.freeEntries := by
  simp [blockReason_none_iff, hopen]

theorem payment_of_open {s : State} {c : ClassId} (hopen : (s.cls c).active.mode = .openMode) :
    s.payment c = .free := by
  simp [State.payment, hopen]

/-- Admission into the table moves no credit, with an entry FREE or with none. -/
@[simp] theorem enterTable_credit (r : Req) (b : Bool) (s : State) (d : ClassId) :
    ((enterTable r b s).cls d).credit = (s.cls d).credit := by
  cases hfree : s.lowestFree with
  | none => simp [enterTable, hfree]
  | some i =>
    rw [enterTable_cls r b hfree]
    split <;> rfl

/-- Of the effects of R69 the charge on credit alone moves the credit of the class. -/
theorem admitClass_credit (c : ClassId) (r : Req) (s : State) :
    ((admitClass c r s).cls c).credit =
      if s.payment c = .credit then (s.cls c).credit - r.len.val else (s.cls c).credit := by
  rw [admitClass_cls, if_pos rfl, addRace_credit, charge_cls]
  by_cases hp : s.payment c = .credit
  · simp [hp]
  · simp [hp]

/-- Of the effects of R69 the charge on the pool alone moves the pool level. -/
theorem admitClass_poolLevel (c : ClassId) (r : Req) (s : State) :
    (admitClass c r s).admission.poolLevel =
      if s.payment c = .pool then s.admission.poolLevel - r.len.val else s.admission.poolLevel := by
  simp [admitClass]

/-- The request enters the lowest FREE entry, marked borrowed exactly when it is paid on the pool. -/
theorem admitClass_entries {s : State} {i : EntryId} (c : ClassId) (r : Req) (hi : s.lowestFree = some i) :
    (admitClass c r s).table.entries =
      s.table.entries.set i (.queued r (s.payment c == .pool)) i.isLt := by
  simp [admitClass, enterTable_of_free _ _ hi]

/-- Settles O20: the payment of an OPEN class is free, so the admission charges neither credit nor pool and
marks nothing borrowed. -/
theorem openAdmissionNeedsRoomAlone : Obligations.OpenAdmissionNeedsRoomAlone := by
  intro s c r hopen
  have hpay := payment_of_open hopen
  refine ⟨blockReason_none_iff_of_open hopen _, ?_, ?_, fun hroom => ?_⟩
  · simp [admitClass_credit, hpay]
  · simp [admitClass_poolLevel, hpay]
  · obtain ⟨i, hi, hfree⟩ := lowestFree_some_of_free (Nat.zero_lt_of_lt hroom)
    have hentry : (admitClass c r s).table.entries[i] = .queued r (s.payment c == .pool) := by
      rw [admitClass_entries c r hi, vector_set_get, if_pos rfl]
    exact ⟨i, hfree, by rw [hentry, hpay]; rfl⟩

end Sys2Proof.Machine

end

section

namespace Sys2Proof.Machine

/-! ### A whole command has elements (R171, R172) -/

/-- Every command that a body's head announces comes out of `parseData`. -/
theorem parseCmd_eq_parseData {body : List Byte} {k : Cmd} (h : parseCmd body = some k) :
    ∃ hd pos posWhole rest, k = parseData hd pos posWhole rest := by
  rcases body with _ | ⟨h0, _ | ⟨h1, rest⟩⟩
  · cases h
  · cases h
  · by_cases hposFlag : (bytesHalf h0 h1).getLsbD 14 = true
    · rcases rest with _ | ⟨p0, _ | ⟨p1, rest⟩⟩ <;>
        simp only [parseCmd, hposFlag, if_true, Option.some.injEq] at h <;>
        exact ⟨_, _, _, _, h.symm⟩
    · simp only [parseCmd, hposFlag, Bool.false_eq_true, if_false, Option.some.injEq] at h
      exact ⟨_, _, _, _, h.symm⟩

/-- A command whose count is 0 is not whole (R174, check 1). -/
theorem parseCmd_count_ne_zero {body : List Byte} {k : Cmd} (h : parseCmd body = some k)
    (hwhole : k.whole = true) : k.count ≠ 0 := by
  obtain ⟨hd, pos, posWhole, rest, rfl⟩ := parseCmd_eq_parseData h
  simp only [parseData, Bool.and_eq_true, bne_iff_ne] at hwhole
  obtain ⟨⟨-, hcount⟩, -⟩ := hwhole
  exact hcount

theorem whole_of_parseFails_eq_false {k : Cmd} {cur : BitVec 16} (h : k.parseFails cur = false) :
    k.whole = true := by
  simp only [Cmd.parseFails, Bool.or_eq_false_iff, Bool.not_eq_false'] at h
  exact h.1

theorem Cmd.positions_ne_nil {k : Cmd} {cur : BitVec 16} (hpos : (k.posFlag && k.pos.isNone) = false)
    (hcount : k.count ≠ 0) : k.positions cur ≠ [] := by
  unfold Cmd.positions
  rw [hpos]
  cases k.step <;> simp [hcount]

/-- A command of a body that passes check 1 has at least one element. -/
theorem NextCommand.positions_ne_nil {s : State} {run : Run} {k : Cmd} {cur : BitVec 16}
    (h : NextCommand s run k) (hparse : k.parseFails cur = false) : k.positions cur ≠ [] :=
  have hwhole := whole_of_parseFails_eq_false hparse
  Cmd.positions_ne_nil (parseCmd_pos h.parsed hwhole) (parseCmd_count_ne_zero h.parsed hwhole)

/-! ### Check 3 stops the frame (R174, R175) -/

/-- A command that passes PARSE and RANGE and fails ACCESS stops the frame. -/
theorem runCmd_of_accessFails {k : Cmd} {run : Run} {s : State}
    (hparse : k.parseFails s.link.cursors[k.panel] = false)
    (hrange : k.rangeFails s.link.cursors[k.panel] = false)
    (haccess : k.accessFails s.link.cursors[k.panel] = true) :
    runCmd k run s = refuseFrame .access run s := by
  unfold runCmd Cmd.exec
  simp only [hparse, hrange, haccess, Bool.false_eq_true, if_false, if_true]

/-! ### Panel 0: identity (R194) -/

/-- A read of panel 0 does not look at the state. -/
theorem readElem_identity (pos : Nat) (s : State) : readElem 0 pos s = readIdentity pos := rfl

theorem writeRow_identity (pos : Nat) : writeRow 0 pos = .registerWrite := rfl

theorem writable_identity (pos : Nat) : writable 0 pos = false := rfl

/-- A write of panel 0 belongs to REGISTER_WRITE, since each of its elements does. -/
theorem isRow_of_identityWrite {k : Cmd} {cur : BitVec 16} (hwrite : k.write = true) (hpanel : k.panel = 0)
    (hne : k.positions cur ≠ []) : k.isRow cur .registerWrite = true := by
  obtain ⟨p, hp⟩ := List.exists_mem_of_ne_nil _ hne
  have hany : (k.positions cur).any (fun q => writeRow k.panel q == .registerWrite) = true :=
    List.any_eq_true.mpr ⟨p, hp, by rw [hpanel, writeRow_identity]; rfl⟩
  simp [Cmd.isRow, hwrite, hany]

/-- A write of panel 0 fails ACCESS, since no element of the panel takes a write. -/
theorem accessFails_of_identityWrite {k : Cmd} {cur : BitVec 16} (hwrite : k.write = true)
    (hpanel : k.panel = 0) (hne : k.positions cur ≠ []) : k.accessFails cur = true := by
  obtain ⟨p, hp⟩ := List.exists_mem_of_ne_nil _ hne
  have hany : (k.positions cur).any (fun q => !writable k.panel q) = true :=
    List.any_eq_true.mpr ⟨p, hp, by rw [hpanel, writable_identity]; rfl⟩
  simp [Cmd.accessFails, hwrite, hany]

/-- Settles O35: the reads of panel 0 are a table of constants, and a write of it that is whole has an element,
which sends it to REGISTER_WRITE and there fails check 3. -/
theorem identityPanelIsFixed : Obligations.IdentityPanelIsFixed := by
  refine ⟨fun s => ?_, fun run k s hnext hwrite hpanel hparse hrange => ?_⟩
  · simp only [readElem_identity]
    decide
  · have hne := hnext.positions_ne_nil hparse
    have hrow := isRow_of_identityWrite hwrite hpanel hne
    have haccess := accessFails_of_identityWrite hwrite hpanel hne
    have hstep : exec .registerWrite s = .next (refuseFrame .access run s) := by
      rw [show Instr.registerWrite = Row.registerWrite.instr from rfl, exec_row hnext.released,
        runRow_of_next hnext hrow, runCmd_of_accessFails hparse hrange haccess]
    exact ⟨_, hstep, refuseFrame_spec .access run s⟩

end Sys2Proof.Machine

end
